-- ==== Sys2Proof/Word.lean ====
section
/-! DEFINITION. The fixed widths of the block (00_scope.md R8, R9): bytes and the 16-bit request word. -/

namespace Sys2Proof

/-- A command, data, result or BCD byte (R8). Bit 0 is the least significant bit (R9). -/
abbrev Byte := BitVec 8

/-- The host request word `REQ16` (R8, R100). -/
abbrev ReqWord := BitVec 16

end Sys2Proof
end

