-- ==== Sys2Proof/Config.lean ====
section
/-! DEFINITION. What an instance of the block fixes (00_scope.md R7, R53), and the free values of the environment. -/

namespace Sys2Proof

/-- `WIRING` (R7): one bidirectional data line, or an output line and an input line. -/
inductive Wiring where
  | shared
  | split
  deriving DecidableEq, Repr, Inhabited

/-- `BIT_ORDER_IMPL` (R7, R240): the two ways the engine may iterate over a byte. -/
inductive BitOrder where
  | direct
  | preReversed
  deriving DecidableEq, Repr, Inhabited

/-- The timing parameters `T_*` of R7, by name. -/
inductive WaitParam where
  | ceSetup
  | dsu
  | ch
  | cl
  | turn
  | rdSample
  | ceHold
  | ceRecover
  deriving DecidableEq, Repr

/-- Every timing parameter once. -/
def WaitParam.all : List WaitParam :=
  [.ceSetup, .dsu, .ch, .cl, .turn, .rdSample, .ceHold, .ceRecover]

/-- The configuration of R7. The rules take it as an argument and nothing changes it (R53). -/
structure Config where
  wiring           : Wiring
  fClkHz           : Nat
  tCeSetup         : Nat
  tDsu             : Nat
  tCh              : Nat
  tCl              : Nat
  tTurn            : Nat
  tRdSample        : Nat
  tCeHold          : Nat
  tCeRecover       : Nat
  lineFailAdmitted : Bool
  bitOrder         : BitOrder
  wWait            : Nat
  deriving DecidableEq, Repr

/-- The nanoseconds a timing parameter stands for. -/
def Config.ns (cfg : Config) : WaitParam → Nat
  | .ceSetup   => cfg.tCeSetup
  | .dsu       => cfg.tDsu
  | .ch        => cfg.tCh
  | .cl        => cfg.tCl
  | .turn      => cfg.tTurn
  | .rdSample  => cfg.tRdSample
  | .ceHold    => cfg.tCeHold
  | .ceRecover => cfg.tCeRecover

/-- A configuration with every default of R7 (the timing defaults, line failures admitted, `DIRECT`). R7 gives no
default for `WIRING`, `F_CLK_HZ` and `W_WAIT`. -/
def Config.withDefaults (wiring : Wiring) (fClkHz wWait : Nat) : Config where
  wiring           := wiring
  fClkHz           := fClkHz
  tCeSetup         := 4000
  tDsu             := 200
  tCh              := 1000
  tCl              := 1000
  tTurn            := 280
  tRdSample        := 1000
  tCeHold          := 300
  tCeRecover       := 4000
  lineFailAdmitted := true
  bitOrder         := .direct
  wWait            := wWait

/-- OPEN (R7): the wiring of the instance that `State.reset` describes. No body: no proof sees a value (log 2). -/
opaque Config.boardWiring : Wiring

/-- OPEN (R7, N3): the declared clock frequency of that instance, less one (it is positive). -/
opaque Config.boardClkHzPred : Nat

/-- OPEN (R7, D9): how many bits wider than needed that instance's wait counter is. -/
opaque Config.boardExtraWaitBits : Nat

/-- FREE VALUE (R157, U7, D21): whether the environment fails the action that takes draw number `n`. -/
opaque Config.lineFails : Nat → Bool

/-- FREE VALUE (R160, U5, D22): the bit the environment answers to the sample that takes draw number `n`. -/
opaque Config.sampleBit : Nat → Bool

end Sys2Proof
end

