-- ==== Sys2Proof/Machine/Timing.lean ====
section
/-! DEFINITION. The wait counter's cycle counts (40_bus_engine.md R141, D9). -/

namespace Sys2Proof.Machine

/-- `cycles(t) = ceil(t * F_CLK_HZ / 1_000_000_000)` for `ns` nanoseconds at `hz` (R141). -/
def cyclesAt (hz ns : Nat) : Nat := (ns * hz + 999999999) / 1000000000

/-- `cycles` of a timing parameter under a configuration (R141). -/
def cycles (cfg : Config) (t : WaitParam) : Nat := cyclesAt cfg.fClkHz (cfg.ns t)

/-- How many block cycles a `Wait` of this parameter occupies (R161). -/
def waitCycles (cfg : Config) (t : WaitParam) : Nat := max 1 (cycles cfg t)

/-- The largest count the wait counter must hold (R36). -/
def maxCycles (cfg : Config) : Nat := (WaitParam.all.map (cycles cfg)).foldl max 0

/-- The bits of the wait counter that hold a count up to `n` (R7 `W_WAIT`). -/
def bitsNeeded (n : Nat) : Nat := Nat.log2 n + 1

end Sys2Proof.Machine
end

