-- ==== Sys2Proof/Syntax.lean ====
section
/-! DEFINITION. The 18 requests of the operation map (30_encoding.md R101; spec/opcode_table.json, one constructor a row). -/

namespace Sys2Proof

/-- The seven clock registers of the RTC chip the block reaches (20_memory.md R71). -/
inductive ClockReg where
  | sec
  | min
  | hour
  | date
  | month
  | day
  | year
  deriving DecidableEq, Repr

/-- Every clock register once, in index order (R71). -/
def ClockReg.all : List ClockReg := [.sec, .min, .hour, .date, .month, .day, .year]

/-- A request of the block. `d`, `v`, `raw` and `x` are the operand field `OPD` (R102); `rd` is 1 for read. -/
inductive Instr where
  | wrSec (d : Byte)
  | rdSec
  | wrMin (d : Byte)
  | rdMin
  | wrHour (d : Byte)
  | rdHour
  | wrDate (d : Byte)
  | rdDate
  | wrMonth (d : Byte)
  | rdMonth
  | wrDay (d : Byte)
  | rdDay
  | wrYear (d : Byte)
  | rdYear
  | bcdenc (v : Byte)
  | bcddec (raw : Byte)
  | addrenc (reg : ClockReg) (rd : Bool)
  | brev (x : Byte)
  deriving DecidableEq, Repr

/-- The write request of a clock register. -/
def Instr.writeOf : ClockReg → Byte → Instr
  | .sec   => .wrSec
  | .min   => .wrMin
  | .hour  => .wrHour
  | .date  => .wrDate
  | .month => .wrMonth
  | .day   => .wrDay
  | .year  => .wrYear

/-- The read request of a clock register. -/
def Instr.readOf : ClockReg → Instr
  | .sec   => .rdSec
  | .min   => .rdMin
  | .hour  => .rdHour
  | .date  => .rdDate
  | .month => .rdMonth
  | .day   => .rdDay
  | .year  => .rdYear

end Sys2Proof
end

