-- ==== Sys2Proof/Machine/State.lean ====
section
/-! DEFINITION. The state of one block instance (10_state.md R30), its micro-ops and events, the reasons a step can
stop, and the state after reset (R52). -/

namespace Sys2Proof.Machine

/-- A line level (R12). `x` is the spec's `X`: undefined, any level, possibly changing; nothing may rest on it. -/
inductive Level where
  | low
  | high
  | x
  deriving DecidableEq, Repr

/-- The direction of the shared data line (R12). `unk` is the undefined direction after a failed switch (R305). -/
inductive Dir where
  | out
  | input
  | unk
  deriving DecidableEq, Repr

/-- The transaction state machine (R34). -/
inductive Mode where
  | idle
  | busy
  | rstWait
  deriving DecidableEq, Repr

/-- The kind of the transaction in progress (R37). -/
inductive Kind where
  | read
  | write
  deriving DecidableEq, Repr

/-- The lines a `Drive` names (R143); `data` is IO or DOUT by the wiring (R144). -/
inductive Line where
  | ce
  | sclk
  | data
  deriving DecidableEq, Repr

/-- What a `SetDir` switches the shared data line to (R143). -/
inductive Way where
  | input
  | output
  deriving DecidableEq, Repr

/-- The micro-ops of R143. `drive line high` drives `H` when `high`, else `L`; `wait` names its `T_*` parameter. -/
inductive MicroOp where
  | drive (line : Line) (high : Bool)
  | setDir (way : Way)
  | sample (i : Fin 8)
  | wait (t : WaitParam)
  deriving DecidableEq, Repr

/-- The four error kinds of the document's taxonomy (R300 to R304). -/
inductive ErrKind where
  | chipSelect
  | clock
  | read
  | write
  deriving DecidableEq, Repr

/-- STATUS.ERR (R300). Its codes 6 and 7 are never produced, so they have no constructor. -/
inductive Status where
  | ok
  | error (kind : ErrKind)
  | refused
  deriving DecidableEq, Repr

/-- The events of the trace (R164). -/
inductive Event where
  | reset
  | accept (w : ReqWord)
  | drive (line : Line) (high : Bool)
  | setDir (way : Way)
  | sample (i : Fin 8) (b : Bool)
  | wait (t : WaitParam)
  | fail (action : MicroOp) (kind : ErrKind)
  | respond (st : Status) (d : Byte)
  deriving DecidableEq, Repr

/-- The state of R30 (first four groups), then what the model itself carries: the other two agents' coming inputs
and the configuration. -/
structure State where
  -- bus side (R31 to R33)
  ce          : Level
  sclk        : Level
  ioDir       : Dir
  ioOut       : Level
  -- sequencer (R34 to R38)
  mode        : Mode
  kind        : Kind
  cmd         : Byte
  wdata       : Byte
  fix         : Bool
  upc         : Nat
  waitcnt     : Nat
  rx          : Byte
  -- host side (R39 to R46)
  result      : Byte
  status      : Status
  ceUndef     : Bool
  rspValid    : Bool
  refusedMark : Bool
  -- observation (R47)
  trace       : List Event
  -- MODEL: what the host shows at the request port in the coming ready cycles, `none` for req_valid = 0 (log 7)
  host        : List (Option ReqWord)
  -- MODEL: whether the host's reset event occurs in the coming cycles (log 8)
  resets      : List Bool
  -- MODEL: env.fails of the coming actions, then Config.lineFails (log 6)
  fails       : List Bool
  -- MODEL: env.sample_bit of the coming samples, then Config.sampleBit (log 6)
  samples     : List Bool
  -- MODEL: how many free values were taken from Config (log 6)
  draws       : Nat
  -- MODEL: the parameters of R7, an argument of every rule; no step writes them (R53, log 1)
  cfg         : Config
  deriving DecidableEq, Repr

/-- Why the machine stops. -/
inductive Fault where
  /-- Raised by the engine's cycle when `mode = BUSY` and `upc` is past the end of the script. R49 says that this
  never arises; no run from reset reaches it. Safe: the spec gives such a state no step. -/
  | scriptOverrun
  deriving DecidableEq, Repr

/-- Why an instruction has no meaning. -/
inductive Refusal where
  /-- Raised by `exec` for an instruction whose meaning is not written yet; no arm answers it any more. Safe. -/
  | notModelled (mnemonic : String)
  deriving DecidableEq, Repr

/-- The values of R52 for an instance of configuration `cfg`, with nothing placed for the other two agents. -/
def State.resetOf (cfg : Config) : State where
  ce          := .low
  sclk        := .low
  ioDir       := .out
  ioOut       := .low
  mode        := .rstWait
  kind        := .write
  cmd         := 0x00
  wdata       := 0x00
  fix         := false
  upc         := 0
  waitcnt     := cycles cfg .ceRecover
  rx          := 0x00
  result      := 0x00
  status      := .ok
  ceUndef     := false
  rspValid    := false
  refusedMark := false
  trace       := [.reset]
  host        := []
  resets      := []
  fails       := []
  samples     := []
  draws       := 0
  cfg         := cfg

/-- The instance that `State.reset` describes: the defaults of R7, and free constants for what R7 leaves OPEN (log 2).
`W_WAIT` is at least what the largest count needs. -/
def boardConfig : Config :=
  let hz := Config.boardClkHzPred + 1
  Config.withDefaults Config.boardWiring hz
    (bitsNeeded (maxCycles (Config.withDefaults Config.boardWiring hz 0)) + Config.boardExtraWaitBits)

/-- The machine right after reset (R52, R340). -/
def State.reset : State := State.resetOf boardConfig

end Sys2Proof.Machine
end

