-- ==== Sys2Proof/Machine/Flags.lean ====
section
/-! DEFINITION. The host's views of the state: STATUS and the handshake (10_state.md R39 to R43), status codes
(60_exceptions.md R300). -/

namespace Sys2Proof.Machine

/-- The 3-bit code of STATUS.ERR (R300). -/
def Status.code : Status → BitVec 3
  | .ok                => 0
  | .error .chipSelect => 1
  | .error .clock      => 2
  | .error .read       => 3
  | .error .write      => 4
  | .refused           => 5

/-- STATUS.BUSY: 1 when `mode ≠ IDLE` (R39). -/
def State.busyFlag (s : State) : Bool := decide (s.mode ≠ .idle)

/-- The STATUS register as the host reads it: ERR in bits 2:0, CE_UNDEF in 3, BUSY in 4, bits 7:5 read as 0 (R39). -/
def State.statusReg (s : State) : Byte :=
  0#3 ++ BitVec.ofBool s.busyFlag ++ BitVec.ofBool s.ceUndef ++ s.status.code

/-- The RESULT register as the host reads it (R39). -/
def State.resultReg (s : State) : Byte := s.result

/-- `req_ready = 1` exactly when `mode = IDLE` (R42). -/
def State.reqReady (s : State) : Bool := decide (s.mode = .idle)

/-- The word the host shows at the request port, if `req_valid = 1` (R40). -/
def State.reqShown (s : State) : Option ReqWord := s.host.head?.join

/-- `req_valid` (R40). -/
def State.reqValid (s : State) : Bool := s.reqShown.isSome

end Sys2Proof.Machine
end

