-- ==== Sys2Proof/WellFormed.lean ====
section
/-! DEFINITION. Which requests and which configurations are admitted. -/

namespace Sys2Proof

/-- The operand check that the constructors do not express: `BCDENC` requires `v ≤ 99` (R101, R120). A clock
register of index 7 (R120) has no `ClockReg`, and a read has no operand to be nonzero. -/
def Instr.wf : Instr → Bool
  | .bcdenc v => decide (v.toNat ≤ 99)
  | _         => true

/-- R7: `F_CLK_HZ` is positive. -/
def Config.clockWf (cfg : Config) : Bool := decide (0 < cfg.fClkHz)

/-- R7, R36: `W_WAIT` bits hold `cycles(t)` of every timing parameter. -/
def Config.waitWf (cfg : Config) : Bool :=
  WaitParam.all.all fun t => decide (Machine.cycles cfg t < 2 ^ cfg.wWait)

/-- An admitted configuration (R7). -/
def Config.wf (cfg : Config) : Bool := cfg.clockWf && cfg.waitWf

end Sys2Proof
end

