-- ==== Sys2Proof/Decode.lean ====
section
/-! DEFINITION. The request word's decoder and encoder (30_encoding.md R100 to R115, R120) and the command table
(42_framer.md R230). -/

namespace Sys2Proof

/-- `OP = req_word[15:8]` (R100). -/
def opField (w : ReqWord) : Byte := w.extractLsb' 8 8

/-- `OPD = req_word[7:0]` (R100). -/
def opdField (w : ReqWord) : Byte := w.extractLsb' 0 8

/-- A request word from its two fields (R100). -/
def reqWord (op opd : Byte) : ReqWord := op ++ opd

/-- The register index of a command byte, `index(c) = c[5:1]` (R114). -/
def cmdIndex (c : Byte) : BitVec 5 := c.extractLsb' 1 5

/-- The register index of a clock register (R71). -/
def ClockReg.index : ClockReg → BitVec 3
  | .sec   => 0
  | .min   => 1
  | .hour  => 2
  | .date  => 3
  | .month => 4
  | .day   => 5
  | .year  => 6

/-- The clock register of a 3-bit index; index 7 is none (R101, R120). -/
def ClockReg.ofIndex (i : BitVec 3) : Option ClockReg :=
  if i = 0 then some .sec
  else if i = 1 then some .min
  else if i = 2 then some .hour
  else if i = 3 then some .date
  else if i = 4 then some .month
  else if i = 5 then some .day
  else if i = 6 then some .year
  else none

/-- `CMD_TABLE(reg, rd)`: the document's command constants (R111, R230). -/
def cmdTable : ClockReg → Bool → Byte
  | .sec,   false => 0x80
  | .sec,   true  => 0x81
  | .min,   false => 0x82
  | .min,   true  => 0x83
  | .hour,  false => 0x84
  | .hour,  true  => 0x85
  | .date,  false => 0x86
  | .date,  true  => 0x87
  | .month, false => 0x88
  | .month, true  => 0x89
  | .day,   false => 0x8A
  | .day,   true  => 0x8B
  | .year,  false => 0x8C
  | .year,  true  => 0x8D

/-- The operand of a read request must be 0x00 (R101, R120). -/
def decodeRead (opd : Byte) (i : Instr) : Option Instr := if opd = 0 then some i else none

/-- The operand of `BCDENC`: values above 99 are refused (R102, R120). -/
def decodeBcdenc (opd : Byte) : Option Instr := if opd.toNat ≤ 99 then some (.bcdenc opd) else none

/-- The operand of `ADDRENC`: `{0000, reg[2:0], rd}`, reg at most 6 (R102, R120). -/
def decodeAddrenc (opd : Byte) : Option Instr :=
  if opd.extractLsb' 4 4 = 0 then
    (ClockReg.ofIndex (opd.extractLsb' 1 3)).map fun reg => .addrenc reg (opd.getLsbD 0)
  else none

/-- The operation map R101 on the two fields. -/
def decodeFields (op opd : Byte) : Option Instr :=
  if op = 0x01 then decodeBcdenc opd
  else if op = 0x02 then some (.bcddec opd)
  else if op = 0x03 then decodeAddrenc opd
  else if op = 0x04 then some (.brev opd)
  else if op = 0x80 then some (.wrSec opd)
  else if op = 0x81 then decodeRead opd .rdSec
  else if op = 0x82 then some (.wrMin opd)
  else if op = 0x83 then decodeRead opd .rdMin
  else if op = 0x84 then some (.wrHour opd)
  else if op = 0x85 then decodeRead opd .rdHour
  else if op = 0x86 then some (.wrDate opd)
  else if op = 0x87 then decodeRead opd .rdDate
  else if op = 0x88 then some (.wrMonth opd)
  else if op = 0x89 then decodeRead opd .rdMonth
  else if op = 0x8A then some (.wrDay opd)
  else if op = 0x8B then decodeRead opd .rdDay
  else if op = 0x8C then some (.wrYear opd)
  else if op = 0x8D then decodeRead opd .rdYear
  else none

/-- The decode function of R103, total on all 2^16 words; `none` is `Refuse`. -/
def decode (w : ReqWord) : Option Instr := decodeFields (opField w) (opdField w)

/-- The operand byte of `ADDRENC` (R102). -/
def addrencOperand (reg : ClockReg) (rd : Bool) : Byte := 0#4 ++ reg.index ++ BitVec.ofBool rd

/-- The request word of an instruction, from the operation map R101 and the operand forms R102. -/
def encode : Instr → ReqWord
  | .wrSec d        => reqWord 0x80 d
  | .rdSec          => reqWord 0x81 0
  | .wrMin d        => reqWord 0x82 d
  | .rdMin          => reqWord 0x83 0
  | .wrHour d       => reqWord 0x84 d
  | .rdHour         => reqWord 0x85 0
  | .wrDate d       => reqWord 0x86 d
  | .rdDate         => reqWord 0x87 0
  | .wrMonth d      => reqWord 0x88 d
  | .rdMonth        => reqWord 0x89 0
  | .wrDay d        => reqWord 0x8A d
  | .rdDay          => reqWord 0x8B 0
  | .wrYear d       => reqWord 0x8C d
  | .rdYear         => reqWord 0x8D 0
  | .bcdenc v       => reqWord 0x01 v
  | .bcddec raw     => reqWord 0x02 raw
  | .addrenc reg rd => reqWord 0x03 (addrencOperand reg rd)
  | .brev x         => reqWord 0x04 x

/-- The word the host places for the low `nbits` bits of `w`; every bit above them is 0. A request is one 16-bit
word (R100), so the bits above 16 must be 0. -/
def tableWord (nbits w : Nat) : Option ReqWord :=
  if w % 2 ^ nbits < 2 ^ 16 then some (BitVec.ofNat 16 (w % 2 ^ nbits)) else none

/-- What the decoder reads from the table's numbering of an instruction's bits. -/
def decodeTableWord (nbits w : Nat) : Option Instr := (tableWord nbits w).bind decode

end Sys2Proof
end

