-- ==== Sys2Proof/Machine/Operands.lean ====
section
/-! DEFINITION. Operand values and the bit operations on bytes (30_encoding.md R102, 42_framer.md R232, R240). -/

namespace Sys2Proof.Machine

/-- The bit positions 0 to 7 of a byte, in that order (R149, R151). -/
def bitPositions : List (Fin 8) := [0, 1, 2, 3, 4, 5, 6, 7]

/-- `x[i]` (R9). -/
def bitOf (x : Byte) (i : Fin 8) : Bool := x.getLsbD i.val

/-- `x` with bit `i` set to `b`. -/
def setBit (x : Byte) (i : Fin 8) (b : Bool) : Byte :=
  if b then x ||| (1#8 <<< i.val) else x &&& ~~~(1#8 <<< i.val)

/-- The byte with its bit order reversed: `r := 0; for i in 0..7: r[i] <- x[7 - i]` (R232). -/
def reverseByte (x : Byte) : Byte := bitPositions.foldl (fun r i => setBit r i (bitOf x i.rev)) 0

/-- The level a written bit drives: `lvl(0) = L`, `lvl(1) = H` (R148). -/
def Level.ofBit : Bool → Level
  | false => .low
  | true  => .high

/-- The direction a completed switch leaves (R158). -/
def Way.dir : Way → Dir
  | .input  => .input
  | .output => .out

/-- The bit the engine emits in the `k`-th cell of a byte, in either bit order: `DIRECT` walks the byte from bit 0 up,
`PRE_REVERSED` walks the reversed byte from bit 7 down (R240). -/
def emittedBit (order : BitOrder) (x : Byte) (k : Fin 8) : Bool :=
  match order with
  | .direct      => bitOf x k
  | .preReversed => bitOf (reverseByte x) k.rev

/-- The capture register after the `k`-th sample. `DIRECT` writes `rx[k]` (R38, R159); `PRE_REVERSED` assembles the
reversed byte from its top bit down, and `rx` is its reverse (R240; log 15). -/
def capture (order : BitOrder) (rx : Byte) (k : Fin 8) (b : Bool) : Byte :=
  match order with
  | .direct      => setBit rx k b
  | .preReversed => reverseByte (setBit (reverseByte rx) k.rev b)

end Sys2Proof.Machine
end

