-- ==== Sys2Proof/Machine/Script.lean ====
section
/-! DEFINITION. The scripts of the bus transactions (40_bus_engine.md R145 to R156) and their durations (R170, R352). -/

namespace Sys2Proof.Machine

/-- `fixup(fix)` (R147). -/
def fixup (fix : Bool) : List MicroOp := if fix then [.setDir .output] else []

/-- Step 1 of every transaction (R146). -/
def prologue : List MicroOp := [.drive .sclk false, .drive .ce true, .wait .ceSetup]

/-- One written bit cell (R148). -/
def wbit (b : Bool) : List MicroOp :=
  [.drive .data b, .wait .dsu, .drive .sclk true, .wait .ch, .drive .sclk false, .wait .cl]

/-- One written byte, least-significant bit first (R149), in either implementation of the bit order (R240). -/
def wbyte (order : BitOrder) (x : Byte) : List MicroOp := bitPositions.flatMap fun k => wbit (emittedBit order x k)

/-- One read bit cell (R150). -/
def rbit (i : Fin 8) : List MicroOp :=
  [.drive .sclk true, .wait .rdSample, .sample i, .drive .sclk false, .wait .cl]

/-- The read byte, least-significant bit first (R151). -/
def rbyte : List MicroOp := bitPositions.flatMap rbit

/-- The turnaround to input (R152). -/
def turnIn : Wiring → List MicroOp
  | .shared => [.setDir .input, .wait .turn]
  | .split  => []

/-- The turnaround back to output (R153). -/
def turnOut : Wiring → List MicroOp
  | .shared => [.setDir .output]
  | .split  => []

/-- Step 4 of every transaction (R154). -/
def epilogue : List MicroOp := [.wait .ceHold, .drive .ce false, .wait .ceRecover]

/-- `write_script(c, d, fix)` (R155). -/
def writeScript (order : BitOrder) (c d : Byte) (fix : Bool) : List MicroOp :=
  fixup fix ++ prologue ++ wbyte order c ++ wbyte order d ++ epilogue

/-- `read_script(c, fix)` (R156). -/
def readScript (wiring : Wiring) (order : BitOrder) (c : Byte) (fix : Bool) : List MicroOp :=
  fixup fix ++ prologue ++ wbyte order c ++ turnIn wiring ++ rbyte ++ turnOut wiring ++ epilogue

/-- `script(s)`: the script of the running transaction (R162). -/
def State.script (s : State) : List MicroOp :=
  match s.kind with
  | .write => writeScript s.cfg.bitOrder s.cmd s.wdata s.fix
  | .read  => readScript s.cfg.wiring s.cfg.bitOrder s.cmd s.fix

/-- The micro-op being executed, `script(s)[s.upc]` (R35, R162). -/
def State.currentOp (s : State) : Option MicroOp := s.script[s.upc]?

/-- Whether a micro-op is an action, which performs one operation on a line and may fail (R143). -/
def MicroOp.isAction : MicroOp → Bool
  | .wait _ => false
  | _       => true

/-- How many actions a list of micro-ops performs. -/
def actionCount (ops : List MicroOp) : Nat := ops.countP MicroOp.isAction

/-- How many block cycles one micro-op occupies (R161, R352). -/
def opCycles (cfg : Config) : MicroOp → Nat
  | .wait t => waitCycles cfg t
  | _       => 1

/-- `n_a + Σ max(1, cycles(t_j))`: the block cycles of a list of micro-ops (R352). -/
def scriptCycles (cfg : Config) (ops : List MicroOp) : Nat := (ops.map (opCycles cfg)).sum

/-- The nanoseconds a micro-op guarantees (R142). -/
def opMinNs (cfg : Config) : MicroOp → Nat
  | .wait t => cfg.ns t
  | _       => 0

/-- The minimum duration of a list of micro-ops: the sum of its waits (R166, R170). -/
def minDurationNs (cfg : Config) (ops : List MicroOp) : Nat := (ops.map (opMinNs cfg)).sum

/-- The minimum separation from the micro-op at position `a` to the one at position `b` of a script (R166). -/
def separationNs (cfg : Config) (ops : List MicroOp) (a b : Nat) : Nat :=
  minDurationNs cfg ((ops.take b).drop (a + 1))

end Sys2Proof.Machine
end

