-- ==== Sys2Proof/Machine/Ops.lean ====
section
/-! DEFINITION. The shared operations over the state: draws of the environment, the response, the abort (the block's
one exception entry), the refusal, acceptance, completion and reset. -/

namespace Sys2Proof.Machine

/-- `s.trace <- s.trace ++ [e]` (R164). -/
def State.log (s : State) (e : Event) : State := { s with trace := s.trace ++ [e] }

/-- `env.fails(this action)` (R157 to R159): the placed answer, or the free value once the placed answers end (log 6). -/
def State.drawFail (s : State) : Bool × State :=
  match s.fails with
  | b :: rest => (b, { s with fails := rest })
  | []        => (Config.lineFails s.draws, { s with draws := s.draws + 1 })

/-- `LINE_FAIL_ADMITTED and env.fails(this action)` (R157, D21): nothing is drawn where no failure is admitted. -/
def State.actionFails (s : State) : Bool × State := if s.cfg.lineFailAdmitted then s.drawFail else (false, s)

/-- `env.sample_bit` (R160): the placed answer, or the free value once the placed answers end (log 6). -/
def State.drawSample (s : State) : Bool × State :=
  match s.samples with
  | b :: rest => (b, { s with samples := rest })
  | []        => (Config.sampleBit s.draws, { s with draws := s.draws + 1 })

/-- `respond(st, d)` (R44): the one return of the block (R312). -/
def State.respond (s : State) (st : Status) (d : Byte) : State :=
  { s with status := st, result := d, rspValid := true, mode := .idle }

/-- What an aborting action leaves undefined (R305): a line, the direction, or (a failed sample) nothing. -/
inductive Failed where
  | line (l : Line)
  | dir
  | nothing
  deriving DecidableEq, Repr

/-- The failed line becomes `X`, the failed direction `UNK` (R305). A failed CE needs no case: every abort makes CE `X`. -/
def State.markFailed (s : State) : Failed → State
  | .line .sclk => { s with sclk := .x }
  | .line .data => { s with ioOut := .x }
  | .line .ce   => s
  | .dir        => { s with ioDir := .unk }
  | .nothing    => s

/-- `abort(kind, failed)` at the failing action (R305): TAKING AN EXCEPTION on this hardware. No deassert, no
recovery wait, no retry (R306, R307). -/
def State.abort (s : State) (action : MicroOp) (kind : ErrKind) (failed : Failed) : State :=
  let s1 := (s.log (.fail action kind)).markFailed failed
  let s2 := { s1 with ce := .x, ceUndef := true, upc := 0, waitcnt := 0 }
  (s2.respond (.error kind) 0x00).log (.respond (.error kind) 0x00)

/-- The data of a completed transaction's response: `rx` of a read, 0x00 of a write (R163). -/
def State.completionData (s : State) : Byte :=
  match s.kind with
  | .read  => s.rx
  | .write => 0x00

/-- Completion without error (R163). `upc` is 0 again (R49 bounds it by 102; programs P1 to P9 show it; log 5). -/
def State.complete (s : State) : State :=
  let d := s.completionData
  let s1 := { (s.respond .ok d) with ceUndef := false, upc := 0 }
  s1.log (.respond .ok d)

/-- A micro-op completes: `upc` advances by 1, and the last one ends the request in the same step (R49, R162). -/
def State.completeMicroOp (s : State) : State :=
  if s.upc + 1 = s.script.length then s.complete else { s with upc := s.upc + 1 }

/-- `refuse()` for the word `w` (R310). -/
def State.refuse (s : State) (w : ReqWord) : State :=
  let s1 := (s.log (.accept w)).log (.respond .refused 0x00)
  { (s1.respond .refused 0x00) with refusedMark := true }

/-- A pure request: accepted and answered OK in one step (R231, R232, R250, R251; D17). -/
def State.answer (s : State) (w : ReqWord) (r : Byte) : State :=
  ((s.log (.accept w)).log (.respond .ok r)).respond .ok r

/-- The direction fix-up flag as evaluated at acceptance (R147). -/
def State.needsFix (s : State) : Bool := decide (s.ioDir ≠ .out) && decide (s.cfg.wiring = .shared)

/-- `accept_read(c)` for the request word `w` (R200). -/
def State.acceptRead (s : State) (w : ReqWord) (c : Byte) : State :=
  { s.log (.accept w) with
    kind := .read, cmd := c, wdata := 0x00, rx := 0x00, fix := s.needsFix, upc := 0, mode := .busy, rspValid := false }

/-- `accept_write(c, d)` for the request word `w` (R201). -/
def State.acceptWrite (s : State) (w : ReqWord) (c d : Byte) : State :=
  { s.log (.accept w) with
    kind := .write, cmd := c, wdata := d, fix := s.needsFix, upc := 0, mode := .busy, rspValid := false }

/-- Reset (R340, R342): every piece of the block's state takes its value of R52. The trace is kept and gains one
`Reset` event; what the other agents will do and the configuration are not the block's to reset (log 8). -/
def State.applyReset (s : State) : State :=
  { State.resetOf s.cfg with
    trace := s.trace ++ [.reset], host := s.host, resets := s.resets, fails := s.fails, samples := s.samples,
    draws := s.draws }

/-- Whether the host's reset event occurs in this cycle (R342). -/
def State.resetNow (s : State) : Bool := s.resets.headD false

/-- The inputs move on to the next cycle. -/
def State.tick (s : State) : State := { s with resets := s.resets.tail }

/-- The request port in a ready cycle: the word shown, if any, is taken (R40, R42). -/
def State.takeRequest (s : State) : Option ReqWord × State := (s.reqShown, { s with host := s.host.tail })

/-- `s` with the word `w` shown at the request port in the next ready cycle, and that cycle the next one: `mode` is
IDLE, no wait is running and no reset event occurs (log 9). -/
def State.presenting (s : State) (w : ReqWord) : State :=
  { s with mode := .idle, waitcnt := 0, resets := s.resets.set 0 false, host := some w :: s.host }

end Sys2Proof.Machine
end

