-- ==== Sys2Proof/Machine/Bcd.lean ====
section
/-! DEFINITION. The BCD codec's requests (43_bcd.md R250 to R254). -/

namespace Sys2Proof.Machine

/-- `encode(v) = ((v / 10) << 4) | (v % 10)` on natural numbers (R10, R250). -/
def bcdEncode (v : Nat) : Nat := ((v / 10) <<< 4) ||| (v % 10)

/-- `decode(raw) = (raw & 0x0F) + (((raw >> 4) & 0x0F) * 10)`, mask then add (R251, R254). -/
def bcdDecode (raw : Nat) : Nat := (raw &&& 0x0F) + (((raw >>> 4) &&& 0x0F) * 10)

/-- `BCDENC v` (R250): a value above 99 is refused, not computed. -/
def execBcdenc (v : Byte) (s : State) : Host.Outcome State Fault Refusal :=
  if v.toNat ≤ 99 then .next (s.answer (encode (.bcdenc v)) (BitVec.ofNat 8 (bcdEncode v.toNat)))
  else .next (s.refuse (encode (.bcdenc v)))

/-- `BCDDEC raw` (R251): every byte is decoded. -/
def execBcddec (raw : Byte) (s : State) : Host.Outcome State Fault Refusal :=
  .next (s.answer (encode (.bcddec raw)) (BitVec.ofNat 8 (bcdDecode raw.toNat)))

end Sys2Proof.Machine
end

