-- ==== Sys2Proof/Machine/Framer.lean ====
section
/-! DEFINITION. The framer's requests (42_framer.md R231, R232). -/

namespace Sys2Proof.Machine

/-- `ADDRENC reg, R|W` (R231): the table lookup R230. A register of index 7 is refused by the decoder (R120). -/
def execAddrenc (reg : ClockReg) (rd : Bool) (s : State) : Host.Outcome State Fault Refusal :=
  .next (s.answer (encode (.addrenc reg rd)) (cmdTable reg rd))

/-- `BREV x` (R232). -/
def execBrev (x : Byte) (s : State) : Host.Outcome State Fault Refusal :=
  .next (s.answer (encode (.brev x)) (reverseByte x))

end Sys2Proof.Machine
end

