-- ==== Sys2Proof/Machine/Transactions.lean ====
section
/-! DEFINITION. The fourteen bus transaction requests (41_transactions.md R202 to R215): what accepting each does. The
script then runs by Machine/Engine.lean. `step` calls a meaning only where `mode = IDLE` (R200, R201; log 14). -/

namespace Sys2Proof.Machine

/-- `WR_SEC` (R202). -/
def execWrSec (d : Byte) (s : State) : Host.Outcome State Fault Refusal :=
  .next (s.acceptWrite (encode (.wrSec d)) 0x80 d)

/-- `RD_SEC` (R203). -/
def execRdSec (s : State) : Host.Outcome State Fault Refusal := .next (s.acceptRead (encode .rdSec) 0x81)

/-- `WR_MIN` (R204). -/
def execWrMin (d : Byte) (s : State) : Host.Outcome State Fault Refusal :=
  .next (s.acceptWrite (encode (.wrMin d)) 0x82 d)

/-- `RD_MIN` (R205). -/
def execRdMin (s : State) : Host.Outcome State Fault Refusal := .next (s.acceptRead (encode .rdMin) 0x83)

/-- `WR_HOUR` (R206). -/
def execWrHour (d : Byte) (s : State) : Host.Outcome State Fault Refusal :=
  .next (s.acceptWrite (encode (.wrHour d)) 0x84 d)

/-- `RD_HOUR` (R207). -/
def execRdHour (s : State) : Host.Outcome State Fault Refusal := .next (s.acceptRead (encode .rdHour) 0x85)

/-- `WR_DATE` (R208). -/
def execWrDate (d : Byte) (s : State) : Host.Outcome State Fault Refusal :=
  .next (s.acceptWrite (encode (.wrDate d)) 0x86 d)

/-- `RD_DATE` (R209). -/
def execRdDate (s : State) : Host.Outcome State Fault Refusal := .next (s.acceptRead (encode .rdDate) 0x87)

/-- `WR_MONTH` (R210). -/
def execWrMonth (d : Byte) (s : State) : Host.Outcome State Fault Refusal :=
  .next (s.acceptWrite (encode (.wrMonth d)) 0x88 d)

/-- `RD_MONTH` (R211). -/
def execRdMonth (s : State) : Host.Outcome State Fault Refusal := .next (s.acceptRead (encode .rdMonth) 0x89)

/-- `WR_DAY` (R212). -/
def execWrDay (d : Byte) (s : State) : Host.Outcome State Fault Refusal :=
  .next (s.acceptWrite (encode (.wrDay d)) 0x8A d)

/-- `RD_DAY` (R213). -/
def execRdDay (s : State) : Host.Outcome State Fault Refusal := .next (s.acceptRead (encode .rdDay) 0x8B)

/-- `WR_YEAR` (R214). -/
def execWrYear (d : Byte) (s : State) : Host.Outcome State Fault Refusal :=
  .next (s.acceptWrite (encode (.wrYear d)) 0x8C d)

/-- `RD_YEAR` (R215). -/
def execRdYear (s : State) : Host.Outcome State Fault Refusal := .next (s.acceptRead (encode .rdYear) 0x8D)

end Sys2Proof.Machine
end

