-- ==== Sys2Proof/Machine/Dispatch.lean ====
section
/-! DEFINITION. One arm per request of the operation map (R101). -/

namespace Sys2Proof.Machine

def exec (i : Instr) (s : State) : Host.Outcome State Fault Refusal :=
  match i with
  | .wrSec d => Sys2Proof.Machine.execWrSec d s
  | .rdSec => Sys2Proof.Machine.execRdSec s
  | .wrMin d => Sys2Proof.Machine.execWrMin d s
  | .rdMin => Sys2Proof.Machine.execRdMin s
  | .wrHour d => Sys2Proof.Machine.execWrHour d s
  | .rdHour => Sys2Proof.Machine.execRdHour s
  | .wrDate d => Sys2Proof.Machine.execWrDate d s
  | .rdDate => Sys2Proof.Machine.execRdDate s
  | .wrMonth d => Sys2Proof.Machine.execWrMonth d s
  | .rdMonth => Sys2Proof.Machine.execRdMonth s
  | .wrDay d => Sys2Proof.Machine.execWrDay d s
  | .rdDay => Sys2Proof.Machine.execRdDay s
  | .wrYear d => Sys2Proof.Machine.execWrYear d s
  | .rdYear => Sys2Proof.Machine.execRdYear s
  | .bcdenc v => Sys2Proof.Machine.execBcdenc v s
  | .bcddec raw => Sys2Proof.Machine.execBcddec raw s
  | .addrenc reg rd => Sys2Proof.Machine.execAddrenc reg rd s
  | .brev x => Sys2Proof.Machine.execBrev x s

end Sys2Proof.Machine
end

