-- ==== Sys2Proof/Machine/Engine.lean ====
section
/-! DEFINITION. What each micro-op does, and the block's cycles while a script or the reset recovery runs
(40_bus_engine.md R157 to R162, 70_reset_and_hazards.md R341). -/

namespace Sys2Proof.Machine

/-- `err_of(line)` (R157). -/
def Line.err : Line → ErrKind
  | .ce   => .chipSelect
  | .sclk => .clock
  | .data => .write

/-- The error kind of a failed direction switch (R158, D13). -/
def Way.err : Way → ErrKind
  | .input  => .read
  | .output => .write

/-- The line takes the driven level (R157). -/
def State.setLine (s : State) (line : Line) (l : Level) : State :=
  match line with
  | .ce   => { s with ce := l }
  | .sclk => { s with sclk := l }
  | .data => { s with ioOut := l }

/-- The direction is switched; the level driven after a switch back to output is undefined (R158, D12). -/
def State.switchDir (s : State) (way : Way) : State :=
  match way with
  | .input  => { s with ioDir := .input }
  | .output => { s with ioDir := .out, ioOut := .x }

/-- `Drive(line, lvl)` (R157). -/
def execDrive (line : Line) (high : Bool) (s : State) : State :=
  let (bad, s1) := s.actionFails
  if bad then s1.abort (.drive line high) line.err (.line line)
  else ((s1.setLine line (Level.ofBit high)).log (.drive line high)).completeMicroOp

/-- `SetDir(d)` (R158). -/
def execSetDir (way : Way) (s : State) : State :=
  let (bad, s1) := s.actionFails
  if bad then s1.abort (.setDir way) way.err .dir
  else ((s1.switchDir way).log (.setDir way)).completeMicroOp

/-- `Sample(i)` (R159). -/
def execSample (i : Fin 8) (s : State) : State :=
  let (bad, s1) := s.actionFails
  if bad then s1.abort (.sample i) .read .nothing
  else
    let (b, s2) := s1.drawSample
    ({ s2 with rx := capture s2.cfg.bitOrder s2.rx i b }.log (.sample i b)).completeMicroOp

/-- A `Wait` completes: its event is appended and the counter is 0 (R36, R161). -/
def finishWait (t : WaitParam) (s : State) : State := ({ s with waitcnt := 0 }.log (.wait t)).completeMicroOp

/-- The count at the start of this cycle: loaded by the wait's first cycle, which finds 0 there (R161; log 4). -/
def waitCount (t : WaitParam) (s : State) : Nat := if s.waitcnt = 0 then cycles s.cfg t else s.waitcnt

/-- One block cycle of `Wait(t)`: it completes in the cycle where the counter reaches 0, or in its first cycle when
`cycles(t) = 0` (R161). -/
def execWait (t : WaitParam) (s : State) : State :=
  if waitCount t s ≤ 1 then finishWait t s else { s with waitcnt := waitCount t s - 1 }

/-- One block cycle of a micro-op (R157 to R161): an action takes one cycle, a `Wait` may take more. -/
def execMicroOp (op : MicroOp) (s : State) : State :=
  match op with
  | .drive line high => execDrive line high s
  | .setDir way      => execSetDir way s
  | .sample i        => execSample i s
  | .wait t          => execWait t s

/-- One block cycle while `mode = BUSY` (R162). -/
def busyCycle (s : State) : Host.Outcome State Fault Refusal :=
  match s.currentOp with
  | some op => .next (execMicroOp op s)
  | none    => .fault .scriptOverrun

/-- One block cycle of the reset recovery (R341): no response, `rsp_valid` stays as it is. -/
def recoveryCycle (s : State) : State :=
  if s.waitcnt ≤ 1 then { s with waitcnt := 0, mode := .idle } else { s with waitcnt := s.waitcnt - 1 }

end Sys2Proof.Machine
end

