-- ==== Sys2Proof/Machine/Cycle.lean ====
section
/-! DEFINITION. One block clock cycle in every mode, and how a request word comes to the request port (log 3, log 9). -/

namespace Sys2Proof.Machine

/-- A ready cycle (R40, R42, R320): without a request the block holds its lines and waits; a request is accepted, and
executed or refused (R103, R310). -/
def idleCycle (s : State) : Host.Outcome State Fault Refusal :=
  match s.takeRequest with
  | (none, s1)   => .next s1
  | (some w, s1) =>
    match decode w with
    | some i => exec i s1
    | none   => .next (s1.refuse w)

/-- One block clock cycle: reset takes priority over every step (R309, R342), then the mode decides (R34). -/
def clockCycle (s : State) : Host.Outcome State Fault Refusal :=
  if s.resetNow then .next s.tick.applyReset
  else
    match s.mode with
    | .idle    => idleCycle s.tick
    | .busy    => busyCycle s.tick
    | .rstWait => .next (recoveryCycle s.tick)

/-- `s` with the request of the table's numbering shown in the next cycle, which is a ready one. Where the number is no
request word, no word is shown. -/
def State.presentTableWord (s : State) (nbits w : Nat) : State :=
  match tableWord nbits w with
  | some r => s.presenting r
  | none   => s

end Sys2Proof.Machine
end

