-- ==== Sys2Proof/Machine/Step.lean ====
section
/-! DEFINITION. The step of the machine is one block clock cycle (R352, log 3). -/

namespace Sys2Proof.Machine

/-- One block clock cycle (R161, R162, R341, R342, R352). -/
def step (s : State) : Host.Outcome State Fault Refusal := clockCycle s

/-- `s` with the request of the table's numbering shown at the request port in the next cycle (log 9). -/
def State.withFetchWord (s : State) (nbits w : Nat) : State := s.presentTableWord nbits w

end Sys2Proof.Machine
end

