-- ==== Sys2Proof/Machine/Asm.lean ====
section
/-! DEFINITION. The request text syntax (30_encoding.md R122, R123). A text is a list of characters (log 20). -/

namespace Sys2Proof.Machine

/-- A line of request text: a request by name, or a raw word (R122). -/
inductive AsmLine where
  | request (i : Instr)
  | word (w : ReqWord)
  deriving DecidableEq, Repr

/-- The request word of a line; a request the syntax does not admit has none (`BCDENC` above 99). -/
def AsmLine.assemble : AsmLine → Option ReqWord
  | .request i => if i.wf then some (encode i) else none
  | .word w    => some w

/-- The name of a clock register (R122). -/
def ClockReg.text : ClockReg → List Char
  | .sec   => ['S', 'E', 'C']
  | .min   => ['M', 'I', 'N']
  | .hour  => ['H', 'O', 'U', 'R']
  | .date  => ['D', 'A', 'T', 'E']
  | .month => ['M', 'O', 'N', 'T', 'H']
  | .day   => ['D', 'A', 'Y']
  | .year  => ['Y', 'E', 'A', 'R']

/-- The clock register of a name (R122). -/
def regOfText (t : List Char) : Option ClockReg := ClockReg.all.find? fun r => ClockReg.text r == t

/-- The value of a digit character. -/
def digitOf (c : Char) : Option Nat :=
  if '0' ≤ c ∧ c ≤ '9' then some (c.toNat - '0'.toNat)
  else if 'a' ≤ c ∧ c ≤ 'f' then some (c.toNat - 'a'.toNat + 10)
  else if 'A' ≤ c ∧ c ≤ 'F' then some (c.toNat - 'A'.toNat + 10)
  else none

/-- The value of a nonempty run of digits in a base. -/
def valueOf (base : Nat) (ds : List Char) : Option Nat :=
  if ds.isEmpty then none
  else ds.foldl (fun acc c =>
    match acc, digitOf c with
    | some n, some d => if d < base then some (n * base + d) else none
    | _, _           => none) (some 0)

/-- A literal of at most `bits` bits: decimal, `0x` hexadecimal, or `0b` binary with `_` as a separator (R122). DESIGN CHOICE
(log 20), where R122 gives ranges only: a decimal or hexadecimal literal has any number of digits, leading zeros among them, and
its value alone is bounded; the bits of a binary literal are its digits, and `_` may lead, trail or repeat in it. -/
def literalOf (bits : Nat) (t : List Char) : Option Nat :=
  let value :=
    match t with
    | '0' :: 'x' :: ds => valueOf 16 ds
    | '0' :: 'b' :: ds =>
      let digits := ds.filter (· != '_')
      if digits.length ≤ bits then valueOf 2 digits else none
    | ds               => valueOf 10 ds
  value.filter (· < 2 ^ bits)

/-- An `<imm8>` (R122). -/
def imm8Of (t : List Char) : Option Byte := (literalOf 8 t).map (BitVec.ofNat 8)

/-- The tokens of a line: a comma is its own token, spaces separate, and a comment starts with `;` (R122). -/
def tokensOf (word : List Char) : List Char → List (List Char)
  | []        => if word.isEmpty then [] else [word.reverse]
  | c :: rest =>
    let done := if word.isEmpty then [] else [word.reverse]
    if c = ';' then done
    else if c = ',' then done ++ [[',']] ++ tokensOf [] rest
    else if c = ' ' ∨ c = '\t' then done ++ tokensOf [] rest
    else tokensOf (c :: word) rest

/-- A direction of `ADDRENC` (R122). -/
def directionOf (t : List Char) : Option Bool :=
  if t = ['R'] then some true else if t = ['W'] then some false else none

/-- The requests without a second operand token (R122, R123). -/
def parseOne (m : List Char) : Option AsmLine :=
  match m with
  | 'R' :: 'D' :: '_' :: reg => (regOfText reg).map fun r => .request (.readOf r)
  | _                        => none

/-- The requests of a mnemonic and one operand token (R122, R123). -/
def parseTwo (m x : List Char) : Option AsmLine :=
  if m = ['B', 'C', 'D', 'E', 'N', 'C'] then (imm8Of x).map fun v => .request (.bcdenc v)
  else if m = ['B', 'C', 'D', 'D', 'E', 'C'] then (imm8Of x).map fun v => .request (.bcddec v)
  else if m = ['B', 'R', 'E', 'V'] then (imm8Of x).map fun v => .request (.brev v)
  else if m = ['.', 'w', 'o', 'r', 'd'] then (literalOf 16 x).map fun v => .word (BitVec.ofNat 16 v)
  else if m = ['R', 'D'] then (regOfText x).map fun r => .request (.readOf r)
  else
    match m with
    | 'W' :: 'R' :: '_' :: reg => (regOfText reg).bind fun r => (imm8Of x).map fun v => .request (.writeOf r v)
    | _                        => none

/-- The requests of a mnemonic and two operands with a comma between them (R122, R123). -/
def parseThree (m x y : List Char) : Option AsmLine :=
  if m = ['A', 'D', 'D', 'R', 'E', 'N', 'C'] then
    (regOfText x).bind fun r => (directionOf y).map fun rd => .request (.addrenc r rd)
  else if m = ['W', 'R'] then (regOfText x).bind fun r => (imm8Of y).map fun v => .request (.writeOf r v)
  else none

/-- One line of request text (R122, R123): `some none` for a blank or comment line, `none` for no line of the syntax. -/
def parseLine (line : List Char) : Option (Option AsmLine) :=
  match tokensOf [] line with
  | []               => some none
  | [m]              => (parseOne m).map some
  | [m, x]           => (parseTwo m x).map some
  | [m, x, [','], y] => (parseThree m x y).map some
  | _                => none

/-- The request word of one line of text, if the line is a request the syntax admits. -/
def assembleLine (line : List Char) : Option ReqWord := ((parseLine line).bind id).bind AsmLine.assemble

end Sys2Proof.Machine
end

