-- ==== Sys2Proof/Machine/HostSeq.lean ====
section
/-! DEFINITION. The reference host sequences, which stand outside the block (45_host_sequences.md R270 to R285). No state or
request of the block comes from this file. -/

namespace Sys2Proof.Machine

/-- How a sequence ends. -/
inductive HostResult where
  | value (v : Nat)
  | flag (b : Bool)
  | written
  /-- The first response whose STATUS.ERR is not OK ends the sequence (R283). -/
  | failed (st : Status)
  /-- A value outside the field's range: no request is performed (R274, D30). -/
  | noRequest
  deriving DecidableEq, Repr

/-- A host sequence: a result, or a request and what follows its RESULT. -/
inductive HostSeq where
  | done (r : HostResult)
  | ask (w : ReqWord) (k : Byte → HostSeq)

/-- The OPEN host parameters of R272 and R277 (D30). -/
structure HourParams where
  /-- `HOUR_MODE_BIT`, in 7:6. -/
  modeBit     : Fin 8
  /-- `HOUR_12_VALUE`. -/
  twelveValue : Bool
  /-- `HOUR_PM_BIT`, in 7:5. -/
  pmBit       : Fin 8
  /-- `HOUR12_MAP`: the hour of 12 o'clock in 12-hour mode, AM (false) and PM (true). -/
  twelveAt    : Bool → Nat

/-- R272: where the two flags may lie. -/
def HourParams.wf (p : HourParams) : Bool := decide (6 ≤ p.modeBit.val) && decide (5 ≤ p.pmBit.val)

/-- The field range of a register, binary (R274). -/
def fieldRange : ClockReg → Nat × Nat
  | .sec   => (0, 59)
  | .min   => (0, 59)
  | .hour  => (0, 23)
  | .date  => (1, 31)
  | .month => (1, 12)
  | .day   => (1, 7)
  | .year  => (0, 99)

/-- Whether a value lies in the field's range (R274). -/
def inRange (reg : ClockReg) (v : Nat) : Bool := decide ((fieldRange reg).1 ≤ v) && decide (v ≤ (fieldRange reg).2)

/-- `r <- RD_X`. -/
def askRead (reg : ClockReg) (k : Byte → HostSeq) : HostSeq := .ask (encode (.readOf reg)) k

/-- `WR_X d`, and the end of the sequence. -/
def askWrite (reg : ClockReg) (d : Byte) : HostSeq := .ask (encode (.writeOf reg d)) fun _ => .done .written

/-- `v <- BCDDEC raw`. -/
def askDecode (raw : Byte) (k : Nat → HostSeq) : HostSeq := .ask (encode (.bcddec raw)) fun r => k r.toNat

/-- `e <- BCDENC v`. -/
def askEncode (v : Nat) (k : Byte → HostSeq) : HostSeq := .ask (encode (.bcdenc (BitVec.ofNat 8 v))) k

/-- `get_seconds` (R275). -/
def getSeconds : HostSeq := askRead .sec fun r => askDecode (r &&& 0x7F) fun v => .done (.value v)

/-- `get_minutes`, `get_date`, `get_month`, `get_day`, `get_year` (R276): no mask (R273). -/
def getPlain (reg : ClockReg) : HostSeq := askRead reg fun r => askDecode r fun v => .done (.value v)

/-- `get_hour` (R277). -/
def getHour (p : HourParams) : HostSeq :=
  askRead .hour fun r =>
    if r.getLsbD p.modeBit.val ≠ p.twelveValue then askDecode (r &&& 0x3F) fun v => .done (.value v)
    else askDecode (r &&& 0x1F) fun v =>
      let pm := r.getLsbD p.pmBit.val
      .done (.value (if v = 12 then p.twelveAt pm else if pm then v + 12 else v))

/-- The getter of a register (R275 to R277). -/
def getField (p : HourParams) : ClockReg → HostSeq
  | .sec   => getSeconds
  | .hour  => getHour p
  | reg    => getPlain reg

/-- `set_seconds(v)` (R278): the halt flag read first is written back. -/
def setSeconds (v : Nat) : HostSeq :=
  if inRange .sec v then askRead .sec fun r => askEncode v fun e => askWrite .sec ((r &&& 0x80) ||| e)
  else .done .noRequest

/-- `set_minutes`, `set_date`, `set_month`, `set_day`, `set_year` (R279) and `set_hour` (R280): encode, then write. -/
def setPlain (reg : ClockReg) (v : Nat) : HostSeq :=
  if inRange reg v then askEncode v fun e => askWrite reg e else .done .noRequest

/-- The setter of a register (R278 to R280). -/
def setField : ClockReg → Nat → HostSeq
  | .sec => setSeconds
  | reg  => setPlain reg

/-- `is_running` (R281). -/
def isRunning : HostSeq := askRead .sec fun r => .done (.flag (!r.getLsbD 7))

/-- The byte `set_running(b)` writes (R282): only the halt flag is altered. -/
def runningByte (b : Bool) (r : Byte) : Byte := if b then r &&& 0x7F else r ||| 0x80

/-- `set_running(b)` (R282). -/
def setRunning (b : Bool) : HostSeq := askRead .sec fun r => askWrite .sec (runningByte b r)

/-- What a sequence issues and how it ends, given the responses in order (R283); `none` where they run out. -/
def HostSeq.replay : HostSeq → List (Status × Byte) → List ReqWord × Option HostResult
  | .done r, _                     => ([], some r)
  | .ask w _, []                   => ([w], none)
  | .ask w k, (.ok, d) :: rest     => let (ws, r) := (k d).replay rest; (w :: ws, r)
  | .ask w _, (st, _) :: _         => ([w], some (.failed st))

/-- Whether a request word is a bus transaction (R101). -/
def isTransaction (w : ReqWord) : Bool := (opField w).getLsbD 7 && (decode w).isSome

/-- Whether the coming cycle accepts the word shown (R42): IDLE, `req_valid`, and no reset event. -/
def State.accepts (s : State) : Bool := s.reqReady && s.reqValid && !s.resetNow

/-- The block's cycles while the host waits for the response to the word it shows (R41, R270), at most `fuel`; `accepted` says
whether the block has taken the word yet. Once it has, the request runs while the block is BUSY and has ended where it is not:
with a response (`true`), or without one where a reset cut it short (R342). `false` is a host that is still waiting. -/
def awaitResponse : Nat → Bool → State → Host.Outcome (Bool × State) Fault Refusal
  | 0, accepted, s        => .next (accepted && decide (s.mode ≠ .busy) && s.rspValid, s)
  | fuel + 1, accepted, s =>
    if accepted = true ∧ s.mode ≠ .busy then .next (s.rspValid, s)
    else
      match step s with
      | .next t    => awaitResponse fuel (accepted || s.accepts) t
      | .fault r   => .fault r
      | .refused r => .refused r

/-- The host presents a word, holds it until it is accepted (R43), and waits for its response (R270), at most `fuel` cycles
in all; `true` where the response stands. -/
def transact (fuel : Nat) (w : ReqWord) (s : State) : Host.Outcome (Bool × State) Fault Refusal :=
  awaitResponse fuel false { s with host := some w :: s.host }

/-- A sequence run against the block, with `fuel` cycles for each request (R270, R283). No request is issued before the
response to the one before it stands; `none` is a sequence that still waits for a response. -/
def HostSeq.onBlock (fuel : Nat) : HostSeq → State → Host.Outcome (Option HostResult × State) Fault Refusal
  | .done r, s  => .next (some r, s)
  | .ask w k, s =>
    match transact fuel w s with
    | .next (true, t)  => if t.status = .ok then (k t.result).onBlock fuel t else .next (some (.failed t.status), t)
    | .next (false, t) => .next (none, t)
    | .fault r         => .fault r
    | .refused r       => .refused r

end Sys2Proof.Machine
end

