-- ==== Sys2Proof/Machine/Micro.lean ====
section
/-! DEFINITION. The model-level step of 40_bus_engine.md R161 and R162: a `Wait` is one step, and so is the reset
recovery. `step` refines it cycle by cycle (log 3). Resets are the host's, between these steps. -/

namespace Sys2Proof.Machine

/-- One whole micro-op (R162). -/
def wholeMicroOp (op : MicroOp) (s : State) : State :=
  match op with
  | .wait t => finishWait t s
  | other   => execMicroOp other s

/-- The model-level step (R161, R162, R341). -/
def microStep (s : State) : Host.Outcome State Fault Refusal :=
  match s.mode with
  | .idle    => idleCycle s
  | .rstWait => .next { s with waitcnt := 0, mode := .idle }
  | .busy    =>
    match s.currentOp with
    | some op => .next (wholeMicroOp op s)
    | none    => .fault .scriptOverrun

/-- How many block cycles the model-level step from `s` takes (R161, R352): what is left of the running wait or of the
reset recovery, one for anything else. -/
def cyclesLeft (s : State) : Nat :=
  match s.mode with
  | .idle    => 1
  | .rstWait => max 1 s.waitcnt
  | .busy    =>
    match s.currentOp with
    | some (.wait t) => max 1 (waitCount t s)
    | _              => 1

/-- The inputs `n` cycles later. -/
def State.tickBy (s : State) (n : Nat) : State := { s with resets := s.resets.drop n }

/-- No reset event occurs in the coming `n` cycles. -/
def State.noResetFor (s : State) (n : Nat) : Bool := (s.resets.take n).all (· == false)

end Sys2Proof.Machine
end

