-- ==== Sys2Proof/Safety.lean ====
section
/-! DEFINITION. What claims are stated in: observers of the trace (40_bus_engine.md R164, R165), what a script has done
up to a position, the invariant of the block, and the hypotheses under which a transaction runs undisturbed. -/

namespace Sys2Proof.Machine

/-- R46: claims about a program take `refused_mark = 0` as a premise. -/
def ClaimPremise (s : State) : Prop := s.refusedMark = false

/-! ## The trace -/

/-- The levels a line is driven to in a list of events, in order. -/
def drivesOf (line : Line) : List Event → List Bool
  | []                  => []
  | .drive l b :: rest  => if l = line then b :: drivesOf line rest else drivesOf line rest
  | _ :: rest           => drivesOf line rest

/-- The edges `from → to` in a sequence of driven levels that starts after level `last`. -/
def edges (start stop : Bool) : Bool → List Bool → Nat
  | _,    []         => 0
  | last, b :: rest  => (if last = start ∧ b = stop then 1 else 0) + edges start stop b rest

/-- Clock pulses: drives of SCLK to `L` that follow a drive to `H` (R14, R165), with SCLK low before. -/
def sclkPulses (es : List Event) : Nat := edges true false false (drivesOf .sclk es)

/-- CE edges `L→H`, with CE low before (R165). -/
def ceRises (es : List Event) : Nat := edges false true false (drivesOf .ce es)

/-- CE edges `H→L`, with CE low before (R165). -/
def ceFalls (es : List Event) : Nat := edges true false false (drivesOf .ce es)

/-- The data levels the block drives, one at each rising edge of SCLK: what the chip samples (R148). -/
def bitsAtRises : (data : Bool) → (sclk : Bool) → List Event → List Bool
  | _, _, []                        => []
  | _, c, .drive .data b :: rest    => bitsAtRises b c rest
  | d, c, .drive .sclk true :: rest => if c then bitsAtRises d true rest else d :: bitsAtRises d true rest
  | d, _, .drive .sclk false :: rest => bitsAtRises d false rest
  | d, c, _ :: rest                 => bitsAtRises d c rest

/-- The request words accepted in a list of events, in order (R164). -/
def acceptedIn : List Event → List ReqWord
  | []                => []
  | .accept w :: rest => w :: acceptedIn rest
  | _ :: rest         => acceptedIn rest

/-- The responses given in a list of events, in order (R164). -/
def responsesIn : List Event → List (Status × Byte)
  | []                    => []
  | .respond st d :: rest => (st, d) :: responsesIn rest
  | _ :: rest             => responsesIn rest

/-- The eight bits of a byte, least significant first (R73). -/
def bitsLsbFirst (x : Byte) : List Bool := bitPositions.map (bitOf x)

/-- The byte whose bit `k` is the `k`-th bit of the list (R73, R151). -/
def byteOfBits (bs : List Bool) : Byte := BitVec.ofNat 8 ((bs.take 8).foldr (fun b n => 2 * n + b.toNat) 0)

/-- The event of a performed micro-op, given the bits its samples return (R164). -/
def eventOf (bits : List Bool) : MicroOp → Event
  | .drive line high => .drive line high
  | .setDir way      => .setDir way
  | .sample i        => .sample i (bits.getD i.val false)
  | .wait t          => .wait t

/-! ## What a script has done before a position -/

/-- The level of a line after a list of micro-ops, from level `l` (R157, R158). -/
def levelAfter (line : Line) (ops : List MicroOp) (l : Level) : Level :=
  ops.foldl (fun acc op =>
    match op with
    | .drive ln b       => if ln = line then Level.ofBit b else acc
    | .setDir .output   => if line = .data then .x else acc
    | _                 => acc) l

/-- The direction after a list of micro-ops, from direction `d` (R158). -/
def dirAfter (ops : List MicroOp) (d : Dir) : Dir :=
  ops.foldl (fun acc op =>
    match op with
    | .setDir way => way.dir
    | _           => acc) d

/-! ## The invariant -/

/-- While a transaction runs: the sequencer stays in its script (R49), the response is not valid (R41), the command is
an admitted one (R37, R110), the wait counter counts only in a wait (R36), and CE, SCLK and the direction are what the script's
drives up to here left (R146 to R154). -/
structure BusyInv (s : State) : Prop where
  upcInScript   : s.upc < s.script.length
  noResponse    : s.rspValid = false
  waitOnly      : s.waitcnt = 0 ∨ ∃ t, s.currentOp = some (.wait t) ∧ s.waitcnt < cycles s.cfg t
  command       : ∃ reg, s.cmd = cmdTable reg (decide (s.kind = .read))
  readData      : s.kind = .read → s.wdata = 0x00
  ceLevel       : ∃ l, s.ce = levelAfter .ce (s.script.take s.upc) l
  sclkLevel     : ∃ l, s.sclk = levelAfter .sclk (s.script.take s.upc) l
  direction     : s.cfg.wiring = .shared →
                    ∃ d, (s.fix = false → d = .out) ∧ s.ioDir = dirAfter (s.script.take s.upc) d

/-- While no transaction runs: the sequencer rests, and the lines are at rest or CE is undefined (R168, R306). -/
structure RestInv (s : State) : Prop where
  upcZero   : s.upc = 0
  waitZero  : s.mode = .idle → s.waitcnt = 0
  recovery  : s.mode = .rstWait → s.waitcnt ≤ cycles s.cfg .ceRecover ∧ s.rspValid = false ∧ s.ceUndef = false
  atRest    : s.ceUndef = false → s.ce = .low ∧ s.sclk = .low ∧ s.ioDir = .out
  undefined : s.ceUndef = true → s.ce = .x

/-- The invariant of the block: every step keeps it from every state. -/
structure Inv (s : State) : Prop where
  busy      : s.mode = .busy → BusyInv s
  rest      : s.mode ≠ .busy → RestInv s
  splitDir  : s.cfg.wiring = .split → s.ioDir = .out ∧ s.fix = false
  noLeak    : s.status ≠ .ok → s.result = 0x00

/-! ## What a step leaves unchanged -/

/-- The bus lines are as before (R31 to R33). -/
structure SameLines (s t : State) : Prop where
  ce    : t.ce = s.ce
  sclk  : t.sclk = s.sclk
  ioDir : t.ioDir = s.ioDir
  ioOut : t.ioOut = s.ioOut

/-- The latched inputs of the transaction are as before (R37). -/
structure SameLatches (s t : State) : Prop where
  kind  : t.kind = s.kind
  cmd   : t.cmd = s.cmd
  wdata : t.wdata = s.wdata
  fix   : t.fix = s.fix

/-- The sequencer's registers but `mode` are as before (R35 to R38). -/
structure SameSequencer (s t : State) : Prop extends SameLatches s t where
  upc     : t.upc = s.upc
  waitcnt : t.waitcnt = s.waitcnt
  rx      : t.rx = s.rx

/-- The registers the host reads are as before (R39, R41, R45). -/
structure SameHostSide (s t : State) : Prop where
  result   : t.result = s.result
  status   : t.status = s.status
  ceUndef  : t.ceUndef = s.ceUndef
  rspValid : t.rspValid = s.rspValid

/-- The configuration, the environment's coming answers and the host's inputs are as before. -/
structure SameInputs (s t : State) : Prop where
  host    : t.host = s.host
  resets  : t.resets = s.resets
  fails   : t.fails = s.fails
  samples : t.samples = s.samples
  draws   : t.draws = s.draws
  cfg     : t.cfg = s.cfg

/-- A pure request was answered with `r` in its acceptance step, and nothing else changed (R44, R78, D17). -/
structure Answered (s t : State) (w : ReqWord) (r : Byte) : Prop where
  result      : t.result = r
  status      : t.status = .ok
  rspValid    : t.rspValid = true
  mode        : t.mode = .idle
  trace       : t.trace = s.trace ++ [.accept w, .respond .ok r]
  ceUndef     : t.ceUndef = s.ceUndef
  refusedMark : t.refusedMark = s.refusedMark
  lines       : SameLines s t
  sequencer   : SameSequencer s t
  inputs      : SameInputs s t

/-- A word was refused in its acceptance step (R310). -/
structure RefusedWith (s t : State) (w : ReqWord) : Prop where
  result      : t.result = 0x00
  status      : t.status = .refused
  rspValid    : t.rspValid = true
  mode        : t.mode = .idle
  trace       : t.trace = s.trace ++ [.accept w, .respond .refused 0x00]
  refusedMark : t.refusedMark = true
  ceUndef     : t.ceUndef = s.ceUndef
  lines       : SameLines s t
  sequencer   : SameSequencer s t

/-! ## What one cycle of the engine does -/

/-- A micro-op of the running script completed, with the event `ev` (R162, R163): `upc` is one further, or the request
ended with status OK. -/
structure OpCompleted (s t : State) (ev : Event) : Prop where
  latches     : SameLatches s t
  cfg         : t.cfg = s.cfg
  host        : t.host = s.host
  refusedMark : t.refusedMark = s.refusedMark
  goesOn      : s.upc + 1 ≠ s.script.length →
                  t.mode = s.mode ∧ t.upc = s.upc + 1 ∧ SameHostSide s t ∧ t.trace = s.trace ++ [ev]
  ends        : s.upc + 1 = s.script.length →
                  t.mode = .idle ∧ t.upc = 0 ∧ t.status = .ok ∧ t.result = (if s.kind = .read then t.rx else 0x00) ∧
                  t.rspValid = true ∧ t.ceUndef = false ∧ t.trace = s.trace ++ [ev, .respond .ok t.result]

/-- The kind a failing action reports (R157 to R159); a `Wait` cannot fail. -/
def MicroOp.errKind? : MicroOp → Option ErrKind
  | .drive .ce _      => some .chipSelect
  | .drive .sclk _    => some .clock
  | .drive .data _    => some .write
  | .setDir .input    => some .read
  | .setDir .output   => some .write
  | .sample _         => some .read
  | .wait _           => none

/-- Whether a micro-op drives a line. -/
def MicroOp.drives (line : Line) : MicroOp → Bool
  | .drive l _ => decide (l = line)
  | _          => false

/-- Whether a micro-op switches the direction. -/
def MicroOp.switches : MicroOp → Bool
  | .setDir _ => true
  | _         => false

/-- The transaction was aborted at `action` with error `kind` (R305, R306). -/
structure AbortedAt (s t : State) (action : MicroOp) (kind : ErrKind) : Prop where
  trace       : t.trace = s.trace ++ [.fail action kind, .respond (.error kind) 0x00]
  ce          : t.ce = .x
  ceUndef     : t.ceUndef = true
  sclk        : t.sclk = if action.drives .sclk then .x else s.sclk
  ioOut       : t.ioOut = if action.drives .data then .x else s.ioOut
  ioDir       : t.ioDir = if action.switches then .unk else s.ioDir
  upc         : t.upc = 0
  waitcnt     : t.waitcnt = 0
  mode        : t.mode = .idle
  status      : t.status = .error kind
  result      : t.result = 0x00
  rspValid    : t.rspValid = true
  latches     : SameLatches s t
  rx          : t.rx = s.rx
  refusedMark : t.refusedMark = s.refusedMark
  host        : t.host = s.host
  samples     : t.samples = s.samples
  cfg         : t.cfg = s.cfg

/-! ## Runs -/

/-- `n` block cycles. -/
def runN (n : Nat) (s : State) : Host.Outcome State Fault Refusal := Host.Core.run Sys2Proof.core n s

/-- A state the block can come to after reset, whatever the host and the environment do. -/
def Reachable (t : State) : Prop :=
  ∃ cfg host resets fails samples draws n,
    runN n { State.resetOf cfg with host := host, resets := resets, fails := fails, samples := samples, draws := draws }
      = .next t

/-- No line failure occurs in the next `n` actions: none is admitted, or the environment's answers say so. -/
def State.noFailFor (s : State) (n : Nat) : Prop :=
  s.cfg.lineFailAdmitted = false ∨ (n ≤ s.fails.length ∧ (s.fails.take n).all (· == false) = true)

/-- `bits` are the bits of eight samples: those the environment has placed, as far as they go (R160). -/
def SampledBits (placed bits : List Bool) : Prop :=
  bits.length = 8 ∧ ∀ k b, k < 8 → placed[k]? = some b → bits[k]? = some b

/-- The block is idle, it keeps its invariant, and the host shows the word `w` in the next cycle. -/
structure ReadyWith (s : State) (w : ReqWord) : Prop where
  idle  : s.mode = .idle
  inv   : Inv s
  shown : s.reqShown = some w

/-- The script the transaction of a write request runs from `s` (R147, R155). -/
def writeScriptFrom (s : State) (reg : ClockReg) (d : Byte) : List MicroOp :=
  writeScript s.cfg.bitOrder (cmdTable reg false) d (decide (s.cfg.wiring = .shared ∧ s.ioDir ≠ .out))

/-- The script the transaction of a read request runs from `s` (R147, R156). -/
def readScriptFrom (s : State) (reg : ClockReg) : List MicroOp :=
  readScript s.cfg.wiring s.cfg.bitOrder (cmdTable reg true) (decide (s.cfg.wiring = .shared ∧ s.ioDir ≠ .out))

/-- The events of one frame on the bus (R165): up to CE high, the command byte's, the data byte's, and the rest. -/
structure Frame (es : List Event) (cmdBits : List Bool) (dataBits : Option (List Bool)) : Prop where
  parts : ∃ pre cmdEs dataEs post, es = pre ++ cmdEs ++ dataEs ++ post ∧
    drivesOf .ce pre = [true] ∧ sclkPulses pre = 0 ∧
    sclkPulses cmdEs = 8 ∧ drivesOf .ce cmdEs = [] ∧ bitsAtRises false false cmdEs = cmdBits ∧
    sclkPulses dataEs = 8 ∧ drivesOf .ce dataEs = [] ∧
    (∀ bits, dataBits = some bits → bitsAtRises false false dataEs = bits) ∧
    drivesOf .ce post = [false] ∧ drivesOf .sclk post = []

end Sys2Proof.Machine
end

