-- ==== Sys2Proof/Certificates/Slice0/Obligations.lean ====
section
/-! DEFINITION. The statements about the model. Each docstring names the rules it rests on; a
quantifier over states covers every configuration, since the configuration stands in the state (log 1). -/

open Sys2Proof Sys2Proof.Machine

/-! ## Encoding -/

/-- Every well-formed request decodes from its own word (R100 to R103): no bit of an operand is dropped. -/
def Obligations.DecodeOfEncodeIsTheRequest : Prop :=
  ∀ i : Instr, i.wf = true → decode (encode i) = some i

/-- A word has at most one reading, and it is a well-formed request's word (R101, R121). -/
def Obligations.DecodedRequestReencodes : Prop :=
  ∀ (w : ReqWord) (i : Instr), decode w = some i → i.wf = true ∧ encode i = w

/-- The decode function R103 on all 2^16 words, in numbers: `op` is bits 15:8 and `opd` bits 7:0 of the word. -/
def Obligations.DecodeFollowsTheDecodeFunction : Prop :=
  ∀ w : ReqWord,
    let op := w.toNat / 256
    let opd := w.toNat % 256
    (op = 0x01 → decode w = if opd ≤ 99 then some (.bcdenc (BitVec.ofNat 8 opd)) else none) ∧
    (op = 0x02 → decode w = some (.bcddec (BitVec.ofNat 8 opd))) ∧
    (op = 0x03 → (opd / 16 = 0 ∧ opd / 2 % 8 ≤ 6 →
        ∃ reg : ClockReg, reg.index.toNat = opd / 2 % 8 ∧ decode w = some (.addrenc reg (decide (opd % 2 = 1)))) ∧
      (¬(opd / 16 = 0 ∧ opd / 2 % 8 ≤ 6) → decode w = none)) ∧
    (op = 0x04 → decode w = some (.brev (BitVec.ofNat 8 opd))) ∧
    (∀ reg : ClockReg, op = 0x80 + 2 * reg.index.toNat → decode w = some (.writeOf reg (BitVec.ofNat 8 opd))) ∧
    (∀ reg : ClockReg, op = 0x81 + 2 * reg.index.toNat →
      decode w = if opd = 0 then some (.readOf reg) else none) ∧
    (op = 0x00 ∨ (0x05 ≤ op ∧ op ≤ 0x7F) ∨ 0x8E ≤ op → decode w = none)

/-- R120, R310: each word of the list of R120 is accepted by an idle block and refused in that step: REFUSED, RESULT 0x00,
no bus line, no CE_UNDEF and no sequencer register touched, `refused_mark` set. -/
def Obligations.ListedWordsAreRefusedWithoutBusActivity : Prop :=
  ∀ (s : State) (w : ReqWord), s.mode = .idle → s.resetNow = false → s.reqShown = some w →
    (let op := w.toNat / 256
     let opd := w.toNat % 256
     (op = 0x00 ∨ (0x05 ≤ op ∧ op ≤ 0x7F) ∨ 0x8E ≤ op) ∨
     (0x81 ≤ op ∧ op ≤ 0x8D ∧ op % 2 = 1 ∧ opd ≠ 0) ∨
     (op = 0x01 ∧ 99 < opd) ∨
     (op = 0x03 ∧ (opd / 16 ≠ 0 ∨ opd / 2 % 8 = 7))) →
    ∃ t, step s = .next t ∧ RefusedWith s t w ∧ t.host = s.host.tail ∧ t.fails = s.fails ∧ t.samples = s.samples ∧
      t.cfg = s.cfg

/-- Words written out from the operation map R101 and the operand forms R102 decode to the requests they stand for. -/
def Obligations.TabledWordsDecode : Prop :=
  decode 0x8059 = some (.wrSec 0x59) ∧ decode 0x8100 = some .rdSec ∧ decode 0x8412 = some (.wrHour 0x12) ∧
  decode 0x8D00 = some .rdYear ∧ decode 0x0163 = some (.bcdenc 99) ∧ decode 0x02FF = some (.bcddec 0xFF) ∧
  decode 0x0305 = some (.addrenc .hour true) ∧ decode 0x040F = some (.brev 0x0F) ∧
  decode 0x0164 = none ∧ decode 0x030E = none ∧ decode 0x8101 = none ∧ decode 0x8E00 = none

/-! ## The framer's table -/

/-- R242 (which the spec derives from R230 and R110): the command table as a formula; R243, R115: the two forms of the read
command. -/
def Obligations.CommandTableIsTheFormula : Prop :=
  ∀ (reg : ClockReg) (rd : Bool),
    cmdTable reg rd = 0x80 ||| (BitVec.setWidth 8 reg.index <<< 1) ||| BitVec.setWidth 8 (BitVec.ofBool rd) ∧
    cmdTable reg true = cmdTable reg false ||| 0x01 ∧ cmdTable reg true = cmdTable reg false + 1

/-! ## The pure requests -/

/-- R250: `BCDENC v` answers the tens digit in bits 7:4 and the units digit in bits 3:0 for `v ≤ 99`, and is refused
above. -/
def Obligations.BcdencAnswersTensAndUnits : Prop :=
  ∀ (v : Byte) (s : State), s.mode = .idle →
    (v.toNat ≤ 99 → ∃ t, exec (.bcdenc v) s = .next t ∧
      ∃ (w : ReqWord) (r : Byte), w.toNat = 0x0100 + v.toNat ∧ r.toNat = v.toNat / 10 * 16 + v.toNat % 10 ∧
        Answered s t w r) ∧
    (99 < v.toNat → ∃ t, exec (.bcdenc v) s = .next t ∧
      ∃ w : ReqWord, w.toNat = 0x0100 + v.toNat ∧ RefusedWith s t w ∧ SameInputs s t)

/-- R251, R254: `BCDDEC raw` answers `(raw & 0x0F) + ((raw >> 4) & 0x0F) * 10`, mask then add, for every byte. -/
def Obligations.BcddecAnswersMaskThenAdd : Prop :=
  ∀ (raw : Byte) (s : State), s.mode = .idle → ∃ t, exec (.bcddec raw) s = .next t ∧
    ∃ (w : ReqWord) (r : Byte), w.toNat = 0x0200 + raw.toNat ∧ r.toNat = raw.toNat % 16 + raw.toNat / 16 * 10 ∧
      Answered s t w r

/-- R230, R231: `ADDRENC` answers the table's command byte of the register and direction. That it is `0x80 + 2 * index + rd` is
R242, which the spec derives from R230 and R110. -/
def Obligations.AddrencAnswersTheCommandByte : Prop :=
  ∀ (reg : ClockReg) (rd : Bool) (s : State), s.mode = .idle → ∃ t, exec (.addrenc reg rd) s = .next t ∧
    ∃ (w : ReqWord) (r : Byte), w.toNat = 0x0300 + 2 * reg.index.toNat + rd.toNat ∧
      r.toNat = 0x80 + 2 * reg.index.toNat + rd.toNat ∧ r = cmdTable reg rd ∧ Answered s t w r

/-- R232: `BREV x` answers the byte whose bit `k` is bit `7 - k` of `x`, and reversing that answer gives `x` back. -/
def Obligations.BrevAnswersTheReversedByte : Prop :=
  ∀ (x : Byte) (s : State), s.mode = .idle → ∃ t, exec (.brev x) s = .next t ∧
    ∃ (w : ReqWord) (r : Byte), w.toNat = 0x0400 + x.toNat ∧ (∀ k, k < 8 → r.getLsbD k = x.getLsbD (7 - k)) ∧
      Answered s t w r ∧ ∃ u, exec (.brev t.result) t = .next u ∧ u.result = x

/-- R252, R253 (which the spec derives from R250 and R251): decoding the answer of an encoding gives the value back, and
encoding the answer of a decoding gives a byte
of two decimal digits back, through the block. -/
def Obligations.BcdRoundTripsThroughTheBlock : Prop :=
  ∀ s : State,
    (∀ v : Byte, v.toNat ≤ 99 → ∃ t u, exec (.bcdenc v) s = .next t ∧ exec (.bcddec t.result) t = .next u ∧
      u.result = v) ∧
    (∀ b : Byte, b.toNat % 16 ≤ 9 → b.toNat / 16 ≤ 9 → ∃ t u, exec (.bcddec b) s = .next t ∧
      exec (.bcdenc t.result) t = .next u ∧ u.status = .ok ∧ u.result = b)

/-- R79: the four pure requests are functions of their operand alone: two blocks in whatever states give the same
RESULT and STATUS.ERR. -/
def Obligations.PureResultsDependOnTheOperandAlone : Prop :=
  ∀ (i : Instr), (opField (encode i)).toNat ≤ 4 → ∀ (s s' : State), ∃ t t',
    exec i s = .next t ∧ exec i s' = .next t' ∧ t.result = t'.result ∧ t.status = t'.status

/-! ## Acceptance of the transactions -/

/-- R200, R37 (the acceptance): each `RD_*` latches its command byte `0x81 + 2 * index`, clears `wdata` and `rx`, decides the
fix-up, and starts its script; the word accepted is the command byte and an operand of 0x00. -/
def Obligations.ReadAcceptanceLatchesItsCommand : Prop :=
  ∀ (reg : ClockReg) (s : State), s.mode = .idle → ∃ t, exec (.readOf reg) s = .next t ∧
    t.mode = .busy ∧ t.kind = .read ∧ t.cmd.toNat = 0x81 + 2 * reg.index.toNat ∧ t.wdata = 0x00 ∧ t.rx = 0x00 ∧
    (t.fix = true ↔ s.cfg.wiring = .shared ∧ s.ioDir ≠ .out) ∧ t.upc = 0 ∧ t.rspValid = false ∧
    ∃ w : ReqWord, w.toNat = t.cmd.toNat * 256 ∧ t.trace = s.trace ++ [.accept w]

/-- R201, R37 (the acceptance): each `WR_*` latches its command byte `0x80 + 2 * index` and its data byte, decides the
fix-up, and starts its script; the word accepted is the command byte and the data byte. -/
def Obligations.WriteAcceptanceLatchesCommandAndData : Prop :=
  ∀ (reg : ClockReg) (d : Byte) (s : State), s.mode = .idle → ∃ t, exec (.writeOf reg d) s = .next t ∧
    t.mode = .busy ∧ t.kind = .write ∧ t.cmd.toNat = 0x80 + 2 * reg.index.toNat ∧ t.wdata = d ∧ t.rx = s.rx ∧
    (t.fix = true ↔ s.cfg.wiring = .shared ∧ s.ioDir ≠ .out) ∧ t.upc = 0 ∧ t.rspValid = false ∧
    ∃ w : ReqWord, w.toNat = t.cmd.toNat * 256 + d.toNat ∧ t.trace = s.trace ++ [.accept w]

/-- The frame of all fourteen transaction requests (R77, R200, R201): acceptance moves no bus line and writes neither RESULT,
STATUS.ERR, CE_UNDEF nor `refused_mark`, and takes nothing from the environment. -/
def Obligations.TransactionAcceptanceFrame : Prop :=
  ∀ (i : Instr) (s t : State), 0x80 ≤ (opField (encode i)).toNat → exec i s = .next t →
    SameLines s t ∧ SameInputs s t ∧ t.result = s.result ∧ t.status = s.status ∧ t.ceUndef = s.ceUndef ∧
    t.refusedMark = s.refusedMark ∧ t.waitcnt = s.waitcnt

/-! ## The engine -/

/-- R157: one cycle at a `Drive(line, lvl)` of the running script: it aborts with `err_of(line)`, or the line (and no other)
takes the level, its event is appended and the micro-op completes. Under the invariant a data drive with `SHARED` runs only
while the line is an output. -/
def Obligations.DriveMicroOp : Prop :=
  ∀ (s : State) (line : Line) (high : Bool), s.mode = .busy → s.resetNow = false →
    s.currentOp = some (.drive line high) → ∃ t, step s = .next t ∧
      (s.actionFails.1 = true → ∃ kind, MicroOp.errKind? (.drive line high) = some kind ∧
        AbortedAt s t (.drive line high) kind) ∧
      (s.actionFails.1 = false → OpCompleted s t (.drive line high) ∧
        t.ce = (if line = .ce then (if high then .high else .low) else s.ce) ∧
        t.sclk = (if line = .sclk then (if high then .high else .low) else s.sclk) ∧
        t.ioOut = (if line = .data then (if high then .high else .low) else s.ioOut) ∧
        t.ioDir = s.ioDir ∧ t.rx = s.rx ∧ t.waitcnt = s.waitcnt ∧ t.samples = s.samples) ∧
      (Inv s → s.cfg.wiring = .shared → line = .data → s.ioDir = .out)

/-- R158: one cycle at a `SetDir(d)`: it aborts (a switch to input with READ_ERROR, to output with WRITE_ERROR) leaving the
direction undefined, or the direction is switched, a re-enabled output drives an undefined level, and it completes. -/
def Obligations.SetDirMicroOp : Prop :=
  ∀ (s : State) (way : Way), s.mode = .busy → s.resetNow = false → s.currentOp = some (.setDir way) →
    ∃ t, step s = .next t ∧
      (s.actionFails.1 = true →
        AbortedAt s t (.setDir way) (if way = .input then .read else .write) ∧ t.ioDir = .unk) ∧
      (s.actionFails.1 = false → OpCompleted s t (.setDir way) ∧
        t.ioDir = (if way = .input then .input else .out) ∧ t.ioOut = (if way = .output then .x else s.ioOut) ∧
        t.ce = s.ce ∧ t.sclk = s.sclk ∧ t.rx = s.rx ∧ t.waitcnt = s.waitcnt ∧ t.samples = s.samples)

/-- R159: one cycle at a `Sample(i)`: it aborts with READ_ERROR, or bit `i` of `rx` (and no other bit, and no line) takes
the environment's bit, whatever it is. Under the invariant the line sampled with `SHARED` is an input. -/
def Obligations.SampleMicroOp : Prop :=
  ∀ (s : State) (i : Fin 8), s.mode = .busy → s.resetNow = false → s.currentOp = some (.sample i) →
    ∃ t, step s = .next t ∧
      (s.actionFails.1 = true → AbortedAt s t (.sample i) .read) ∧
      (s.actionFails.1 = false → ∃ b : Bool,
        (∀ b' rest, s.samples = b' :: rest → b = b' ∧ t.samples = rest) ∧
        OpCompleted s t (.sample i b) ∧ t.rx.getLsbD i.val = b ∧
        (∀ k, k < 8 → k ≠ i.val → t.rx.getLsbD k = s.rx.getLsbD k) ∧
        SameLines s t ∧ t.waitcnt = s.waitcnt) ∧
      (Inv s → s.cfg.wiring = .shared → s.ioDir = .input)

/-- R161: a `Wait(t)` occupies exactly `max(1, cycles(t))` cycles. In each earlier one only the counter moves: that it is
`cycles(t) - k` after `k` cycles is the model's reading (log 4). In the last the micro-op completes, the counter is 0, and no line
moves; where it is the script's last micro-op, that `upc` is 0 then is the model's (log 5). -/
def Obligations.WaitOccupiesItsCycles : Prop :=
  ∀ (s : State) (t : WaitParam), s.mode = .busy → s.waitcnt = 0 → s.currentOp = some (.wait t) →
    let n := max 1 (cycles s.cfg t)
    s.noResetFor n = true →
      (∀ k, 0 < k → k < n →
        runN k s = .next { s with waitcnt := cycles s.cfg t - k, resets := s.resets.drop k }) ∧
      ∃ u, runN n s = .next u ∧ OpCompleted s u (.wait t) ∧ u.waitcnt = 0 ∧ SameLines s u ∧ u.rx = s.rx ∧
        u.fails = s.fails ∧ u.samples = s.samples

/-! ## Reset -/

/-- R52: every field of the state after reset. Each value is the spec's own choice (its decision D25), not the source's. -/
def Obligations.ResetStateHoldsItsValues : Prop :=
  let s := State.reset
  s.ce = .low ∧ s.sclk = .low ∧ s.ioDir = .out ∧ s.ioOut = .low ∧ s.mode = .rstWait ∧ s.kind = .write ∧ s.cmd = 0x00 ∧
  s.wdata = 0x00 ∧ s.rx = 0x00 ∧ s.fix = false ∧ s.upc = 0 ∧ s.waitcnt = cycles s.cfg .ceRecover ∧ s.result = 0x00 ∧
  s.status = .ok ∧ s.ceUndef = false ∧ s.rspValid = false ∧ s.refusedMark = false ∧ s.trace = [.reset]

/-- R340, R342, R309: a reset event in any state, in the middle of a transaction too, takes the place of the step: every
piece of the block's state takes its value of R52, the trace gains one `Reset` and no response, and the configuration
stays. That the trace is kept across a reset is one of the two forms R340 allows, and the model's choice; that the inputs of
the host and the environment stay as they are is the model's too (log 8). -/
def Obligations.ResetTakesPriorityInEveryState : Prop :=
  ∀ s : State, s.resetNow = true → ∃ t, step s = .next t ∧
    t.ce = .low ∧ t.sclk = .low ∧ t.ioDir = .out ∧ t.ioOut = .low ∧ t.mode = .rstWait ∧ t.kind = .write ∧ t.cmd = 0x00 ∧
    t.wdata = 0x00 ∧ t.rx = 0x00 ∧ t.fix = false ∧ t.upc = 0 ∧ t.waitcnt = cycles s.cfg .ceRecover ∧ t.result = 0x00 ∧
    t.status = .ok ∧ t.ceUndef = false ∧ t.rspValid = false ∧ t.refusedMark = false ∧
    t.trace = s.trace ++ [.reset] ∧ t.cfg = s.cfg ∧ t.host = s.host ∧ t.fails = s.fails ∧ t.samples = s.samples

/-- R341: the reset recovery lasts `max(1, waitcnt)` cycles, then the block is IDLE; it produces no response, no event
and no change of a line. -/
def Obligations.ResetRecoveryEndsInIdleWithoutResponse : Prop :=
  ∀ s : State, s.mode = .rstWait →
    let n := max 1 s.waitcnt
    s.noResetFor n = true →
      (∀ k, k < n → ∃ u, runN k s = .next u ∧ u.mode = .rstWait ∧ u.reqReady = false ∧ u.waitcnt = s.waitcnt - k) ∧
      ∃ t, runN n s = .next t ∧ t.mode = .idle ∧ t.reqReady = true ∧ t.waitcnt = 0 ∧ SameHostSide s t ∧ SameLines s t ∧
        t.trace = s.trace ∧ t.host = s.host

/-! ## The request port -/

/-- A step runs the decoded request (R40, R103): where the block is IDLE, no reset event occurs and the word shown decodes,
`step` is `exec` of that request at the state whose inputs have moved on: the word taken, the cycle's reset input passed. -/
def Obligations.StepRunsTheDecodedRequest : Prop :=
  ∀ (s : State) (w : ReqWord) (i : Instr), s.mode = .idle → s.resetNow = false → s.reqShown = some w → decode w = some i →
    step s = exec i { s with host := s.host.tail, resets := s.resets.tail }

/-- R320, R42: an IDLE block to which no word is shown holds everything, its lines among it. -/
def Obligations.IdleBlockWithoutRequestHoldsItsState : Prop :=
  ∀ s : State, s.mode = .idle → s.resetNow = false → s.reqShown = none →
    step s = .next { s with host := s.host.tail, resets := s.resets.tail }

/-- R42, R43: `req_ready = 1` exactly in IDLE, and in every other mode a step appends no Accept event and takes no request: the
host's word stays presented. That it stays in a cycle with a reset event too is the model's (log 8). -/
def Obligations.RequestIsHeldUntilReady : Prop :=
  ∀ s t : State, (s.reqReady = true ↔ s.mode = .idle) ∧
    (s.mode ≠ .idle → step s = .next t → t.host = s.host ∧ ∃ es, t.trace = s.trace ++ es ∧ acceptedIn es = [])

/-- R39, R300: the STATUS register and the status codes. -/
def Obligations.StatusRegisterLayout : Prop :=
  (∀ s : State, s.statusReg.toNat =
    s.status.code.toNat + 8 * s.ceUndef.toNat + 16 * (if s.mode = .idle then 0 else 1)) ∧
  Status.ok.code = 0 ∧ (Status.error .chipSelect).code = 1 ∧ (Status.error .clock).code = 2 ∧
  (Status.error .read).code = 3 ∧ (Status.error .write).code = 4 ∧ Status.refused.code = 5 ∧
  ∀ st : Status, st.code ≠ 6 ∧ st.code ≠ 7

/-! ## Scripts and timing -/

/-- R155: every position of the write script, in either bit order. -/
def Obligations.WriteScriptPositions : Prop :=
  ∀ (o : BitOrder) (c d : Byte) (fix : Bool),
    let ops := writeScript o c d fix
    let k := fix.toNat
    ops.length = 102 + k ∧ (fix = true → ops[0]? = some (.setDir .output)) ∧
    ops[k]? = some (.drive .sclk false) ∧ ops[k + 1]? = some (.drive .ce true) ∧ ops[k + 2]? = some (.wait .ceSetup) ∧
    (∀ i, i < 8 → (ops.drop (k + 3 + 6 * i)).take 6 = [.drive .data (c.getLsbD i), .wait .dsu, .drive .sclk true, .wait .ch,
      .drive .sclk false, .wait .cl]) ∧
    (∀ i, i < 8 → (ops.drop (k + 51 + 6 * i)).take 6 = [.drive .data (d.getLsbD i), .wait .dsu, .drive .sclk true, .wait .ch,
      .drive .sclk false, .wait .cl]) ∧
    ops[k + 99]? = some (.wait .ceHold) ∧ ops[k + 100]? = some (.drive .ce false) ∧
    ops[k + 101]? = some (.wait .ceRecover)

/-- R156: every position of the read script, in either wiring and bit order. -/
def Obligations.ReadScriptPositions : Prop :=
  ∀ (o : BitOrder) (c : Byte) (fix : Bool) (wiring : Wiring),
    let ops := readScript wiring o c fix
    let k := fix.toNat
    (fix = true → ops[0]? = some (.setDir .output)) ∧
    ops[k]? = some (.drive .sclk false) ∧ ops[k + 1]? = some (.drive .ce true) ∧ ops[k + 2]? = some (.wait .ceSetup) ∧
    (∀ i, i < 8 → (ops.drop (k + 3 + 6 * i)).take 6 = [.drive .data (c.getLsbD i), .wait .dsu, .drive .sclk true, .wait .ch,
      .drive .sclk false, .wait .cl]) ∧
    (wiring = .shared → ops.length = 97 + k ∧ ops[k + 51]? = some (.setDir .input) ∧ ops[k + 52]? = some (.wait .turn) ∧
      (∀ i : Fin 8, (ops.drop (k + 53 + 5 * i.val)).take 5 = [.drive .sclk true, .wait .rdSample, .sample i,
        .drive .sclk false, .wait .cl]) ∧
      ops[k + 93]? = some (.setDir .output) ∧ ops[k + 94]? = some (.wait .ceHold) ∧
      ops[k + 95]? = some (.drive .ce false) ∧ ops[k + 96]? = some (.wait .ceRecover)) ∧
    (wiring = .split → ops.length = 94 + k ∧
      (∀ i : Fin 8, (ops.drop (k + 51 + 5 * i.val)).take 5 = [.drive .sclk true, .wait .rdSample, .sample i,
        .drive .sclk false, .wait .cl]) ∧
      ops[k + 91]? = some (.wait .ceHold) ∧ ops[k + 92]? = some (.drive .ce false) ∧
      ops[k + 93]? = some (.wait .ceRecover))

/-- R241: `BIT_ORDER_IMPL` is unobservable: a block of the other bit order makes the same steps. -/
def Obligations.BitOrderIsUnobservable : Prop :=
  ∀ (s : State) (o : BitOrder),
    let other (u : State) : State := { u with cfg := { u.cfg with bitOrder := o } }
    (∀ t, step s = .next t → step (other s) = .next (other t)) ∧ (∀ r, step s = .fault r → step (other s) = .fault r)

/-- R141: `cycles(t)` is `t * F_CLK_HZ / 10^9` rounded up: the counted time is never shorter than `t` at the declared
frequency, and less than one cycle longer. -/
def Obligations.WaitsNeverReturnEarly : Prop :=
  ∀ (cfg : Config) (t : WaitParam),
    cfg.ns t * cfg.fClkHz ≤ cycles cfg t * 1000000000 ∧ cycles cfg t * 1000000000 < cfg.ns t * cfg.fClkHz + 1000000000

/-- R170: the minimum durations of whole transactions, for every setting of the timing parameters and at the defaults. -/
def Obligations.TransactionMinimumDurations : Prop :=
  ∀ (cfg : Config) (o : BitOrder) (c d : Byte) (fix : Bool),
    let cell := cfg.tDsu + cfg.tCh + cfg.tCl
    let ends := cfg.tCeHold + cfg.tCeRecover
    minDurationNs cfg (writeScript o c d fix) = cfg.tCeSetup + 16 * cell + ends ∧
    minDurationNs cfg (readScript .shared o c fix) =
      cfg.tCeSetup + 8 * cell + cfg.tTurn + 8 * (cfg.tRdSample + cfg.tCl) + ends ∧
    minDurationNs cfg (readScript .split o c fix) = cfg.tCeSetup + 8 * cell + 8 * (cfg.tRdSample + cfg.tCl) + ends ∧
    ∀ wiring hz bits, cfg = Config.withDefaults wiring hz bits →
      minDurationNs cfg (writeScript o c d fix) = 43500 ∧ minDurationNs cfg (readScript .shared o c fix) = 42180 ∧
      minDurationNs cfg (readScript .split o c fix) = 41900

/-- R166: the minimum separations between the bus events of one transaction, row by row, at the positions of R155 and R156
(scripts without fix-up; `i` is a bit cell). -/
def Obligations.MinimumSeparationsOfBusEvents : Prop :=
  ∀ (cfg : Config) (o : BitOrder) (c d : Byte),
    let w := writeScript o c d false
    let r := readScript .shared o c false
    let p := readScript .split o c false
    (∀ ops ∈ [w, r, p], separationNs cfg ops 1 3 = cfg.tCeSetup ∧ separationNs cfg ops 1 5 = cfg.tCeSetup + cfg.tDsu ∧
      (∀ i, i < 8 → separationNs cfg ops (3 + 6 * i) (5 + 6 * i) = cfg.tDsu ∧
        separationNs cfg ops (5 + 6 * i) (7 + 6 * i) = cfg.tCh) ∧
      ∀ i, i < 7 → separationNs cfg ops (7 + 6 * i) (9 + 6 * i) = cfg.tCl ∧
        separationNs cfg ops (5 + 6 * i) (11 + 6 * i) = cfg.tDsu + cfg.tCh + cfg.tCl) ∧
    (∀ i, i < 16 → separationNs cfg w (3 + 6 * i) (5 + 6 * i) = cfg.tDsu ∧
      separationNs cfg w (5 + 6 * i) (7 + 6 * i) = cfg.tCh) ∧
    (∀ i, i < 15 → separationNs cfg w (7 + 6 * i) (9 + 6 * i) = cfg.tCl ∧
      separationNs cfg w (5 + 6 * i) (11 + 6 * i) = cfg.tDsu + cfg.tCh + cfg.tCl) ∧
    separationNs cfg p 49 51 = cfg.tCl ∧ separationNs cfg r 49 51 = cfg.tCl ∧ separationNs cfg r 51 53 = cfg.tTurn ∧
    separationNs cfg r 49 53 = cfg.tCl + cfg.tTurn ∧
    (∀ i, i < 8 → separationNs cfg r (53 + 5 * i) (55 + 5 * i) = cfg.tRdSample ∧
      separationNs cfg r (55 + 5 * i) (56 + 5 * i) = 0 ∧ separationNs cfg p (51 + 5 * i) (53 + 5 * i) = cfg.tRdSample ∧
      separationNs cfg p (53 + 5 * i) (54 + 5 * i) = 0) ∧
    (∀ i, i < 7 → separationNs cfg r (53 + 5 * i) (58 + 5 * i) = cfg.tRdSample + cfg.tCl ∧
      separationNs cfg p (51 + 5 * i) (56 + 5 * i) = cfg.tRdSample + cfg.tCl ∧
      separationNs cfg p (54 + 5 * i) (56 + 5 * i) = cfg.tCl) ∧
    separationNs cfg w 97 100 = cfg.tCl + cfg.tCeHold ∧ separationNs cfg r 91 95 = cfg.tCl + cfg.tCeHold ∧
    separationNs cfg p 89 92 = cfg.tCl + cfg.tCeHold ∧
    separationNs cfg w 100 102 = cfg.tCeRecover ∧ separationNs cfg r 95 97 = cfg.tCeRecover ∧
    separationNs cfg p 92 94 = cfg.tCeRecover

/-! ## The invariant -/

/-- The invariant holds after reset, whatever the configuration (R52, R168). -/
def Obligations.InvariantHoldsAtReset : Prop := Inv State.reset ∧ ∀ cfg, Inv (State.resetOf cfg)

/-- Every step keeps the invariant, from every state that has it and for every answer of the environment (R33, R36, R37, R41,
R49, R168); that `upc` is 0 at rest is the model's (log 5). -/
def Obligations.InvariantKeptByEveryStep : Prop := ∀ s t : State, Inv s → step s = .next t → Inv t

/-- R168: in every run from reset, whatever the host and the environment do: in IDLE with CE_UNDEF clear, CE and SCLK are
low and the data line is an output; and a request that starts no transaction changes no line. -/
def Obligations.IdleBusIsAtRestInEveryRun : Prop :=
  ∀ s : State, Reachable s → s.mode = .idle →
    (s.ceUndef = false → s.ce = .low ∧ s.sclk = .low ∧ s.ioDir = .out) ∧
    ∀ t, s.resetNow = false → step s = .next t → t.mode = .idle → SameLines s t

/-- R167 and R33, in every run from reset: with `SHARED`, a data drive runs only while the line is an output and a sample only
while it is an input; with `SPLIT` the direction never leaves OUT. -/
def Obligations.DataLineDisciplineInEveryRun : Prop :=
  ∀ s : State, Reachable s →
    (s.cfg.wiring = .shared → s.mode = .busy →
      (∀ high, s.currentOp = some (.drive .data high) → s.ioDir = .out) ∧
      (∀ i, s.currentOp = some (.sample i) → s.ioDir = .input)) ∧
    (s.cfg.wiring = .split → s.ioDir = .out)

/-- R49 and R36, with the model's choice that a completed request leaves `upc` 0 (log 5): `upc` stays, advances by 1 or
returns to 0, it is at most 102, and the wait counter fits its `W_WAIT` bits. -/
def Obligations.SequencerStaysInItsBounds : Prop :=
  ∀ s t : State, Inv s → s.cfg.wf = true → step s = .next t →
    (t.upc = s.upc ∨ t.upc = s.upc + 1 ∨ t.upc = 0) ∧ t.upc ≤ 102 ∧ t.waitcnt < 2 ^ t.cfg.wWait

/-- R49: a block with its invariant never stops: no step faults or is refused. -/
def Obligations.BlockNeverStops : Prop := ∀ s : State, Inv s → ∃ t, step s = .next t

/-! ## Rules about every step -/

/-- R53: no step, a reset included, alters the configuration. -/
def Obligations.ConfigurationNeverChanges : Prop := ∀ s t : State, step s = .next t → t.cfg = s.cfg

/-- R47, R164: a step only appends to the trace. -/
def Obligations.TraceOnlyGrows : Prop := ∀ s t : State, step s = .next t → ∃ es, t.trace = s.trace ++ es

/-- R46: `refused_mark` becomes 1 exactly in a step that refuses a request, and no step but a reset (log 8) clears it. -/
def Obligations.RefusedMarkIsSticky : Prop :=
  ∀ s t : State, s.resetNow = false → step s = .next t →
    (t.refusedMark = true ↔ s.refusedMark = true ∨ ∃ w, s.mode = .idle ∧ s.reqShown = some w ∧ decode w = none)

/-- R45: CE_UNDEF is set by every abort and by nothing else, and without a reset only a transaction that completes with
status OK clears it; a pure or refused request leaves it. -/
def Obligations.CeUndefIsSetByAbortsAndClearedByCompletions : Prop :=
  ∀ s t : State, s.resetNow = false → step s = .next t →
    (s.mode ≠ .busy → t.ceUndef = s.ceUndef) ∧
    (s.mode = .busy → t.mode = .busy → t.ceUndef = s.ceUndef) ∧
    (s.mode = .busy → t.mode = .idle → (t.status = .ok ∧ t.ceUndef = false) ∨
      ∃ kind, t.status = .error kind ∧ t.ceUndef = true ∧ t.ce = .x)

/-- R31: CE and SCLK change only through a `Drive` of theirs, through an abort, or through reset. -/
def Obligations.ClockAndChipSelectChangeOnlyByDrives : Prop :=
  ∀ s t : State, s.resetNow = false → step s = .next t →
    (t.ce ≠ s.ce → s.mode = .busy ∧
      ((∃ high, s.currentOp = some (.drive .ce high)) ∨ ∃ kind, t.mode = .idle ∧ t.status = .error kind)) ∧
    (t.sclk ≠ s.sclk → s.mode = .busy ∧ ∃ high, s.currentOp = some (.drive .sclk high))

/-- R37: `kind`, `cmd`, `wdata` and `fix` change only when a transaction is accepted (or at reset). -/
def Obligations.LatchedInputsHoldUntilTheNextAcceptance : Prop :=
  ∀ s t : State, s.resetNow = false → step s = .next t → ¬(s.mode = .idle ∧ t.mode = .busy) → SameLatches s t

/-- R34, R343: the moves of the mode. Only reset leads to RST_WAIT, RST_WAIT leads only to IDLE, a transaction starts only
from IDLE, and BUSY ends only with a response. -/
def Obligations.ModeMoves : Prop :=
  ∀ s t : State, s.resetNow = false → step s = .next t →
    (t.mode = .rstWait → s.mode = .rstWait) ∧
    (t.mode = .busy → s.mode = .busy ∨ (s.mode = .idle ∧ t.upc = 0 ∧ t.rspValid = false)) ∧
    (s.mode = .busy → t.mode = .idle → t.rspValid = true ∧ ∃ es, t.trace = es ++ [.respond t.status t.result])

/-- R39, R41, R44: RESULT and STATUS.ERR hold until the next response overwrites them: a step without a reset in which either
changes, or in which `rsp_valid` rises, ends with a response event of the values they now hold. -/
def Obligations.ResponseHeldUntilTheNextOne : Prop :=
  ∀ s t : State, s.resetNow = false → step s = .next t →
    (t.result ≠ s.result ∨ t.status ≠ s.status ∨ (s.rspValid = false ∧ t.rspValid = true) →
      t.mode = .idle ∧ t.rspValid = true ∧ ∃ es, t.trace = es ++ [.respond t.status t.result]) ∧
    (s.rspValid = true → t.rspValid = false → s.mode = .idle ∧ t.mode = .busy)

/-- R303, R202 to R214: a write request never reports READ_ERROR, at no micro-op and for no answer of the environment. -/
def Obligations.WriteRequestsNeverReportReadError : Prop :=
  ∀ s t : State, s.mode = .busy → s.kind = .write → s.resetNow = false → step s = .next t → t.mode = .idle →
    t.status ≠ .error .read

/-! ## Whole transactions -/

/-- R201, R202 to R214, R163, R352: each `WR_*` from an idle block, with no line failure and no reset: the acceptance
cycle latches the request, and in exactly that cycle and the script's cycles it runs its whole script,
without a response before the end, and ends OK with RESULT 0x00, the bus at rest and the
recovery wait done; the trace is the script's events in order. The exact cycles are R352 (the spec's decision D31), `upc` 0 at the
end is log 5, and where the direction is not OUT at the start, completing rests on the fix-up of decision D15 (log 18). -/
def Obligations.UndisturbedWriteCompletes : Prop :=
  ∀ (s : State) (reg : ClockReg) (d : Byte), ReadyWith s (encode (.writeOf reg d)) →
    let ops := writeScriptFrom s reg d
    let n := 1 + scriptCycles s.cfg ops
    s.noResetFor n = true → s.noFailFor (actionCount ops) →
    (∃ a, runN 1 s = .next a ∧ a.kind = .write ∧ a.cmd = cmdTable reg false ∧ a.wdata = d ∧ a.upc = 0 ∧
      (a.fix = true ↔ s.cfg.wiring = .shared ∧ s.ioDir ≠ .out) ∧
      a.trace = s.trace ++ [.accept (encode (.writeOf reg d))]) ∧
    (∀ k, 0 < k → k < n → ∃ u, runN k s = .next u ∧ u.mode = .busy ∧ u.rspValid = false ∧ u.host = s.host.tail) ∧
    ∃ t, runN n s = .next t ∧ t.mode = .idle ∧ t.status = .ok ∧ t.result = 0x00 ∧ t.rspValid = true ∧ t.ceUndef = false ∧
      t.ce = .low ∧ t.sclk = .low ∧ t.ioDir = .out ∧ t.ioOut = (if d.getLsbD 7 then .high else .low) ∧ t.rx = s.rx ∧
      t.kind = .write ∧ t.cmd = cmdTable reg false ∧ t.wdata = d ∧
      (t.fix = true ↔ s.cfg.wiring = .shared ∧ s.ioDir ≠ .out) ∧ t.upc = 0 ∧ t.waitcnt = 0 ∧
      t.refusedMark = s.refusedMark ∧ t.samples = s.samples ∧ t.host = s.host.tail ∧
      t.trace = s.trace ++ [.accept (encode (.writeOf reg d))] ++ ops.map (eventOf []) ++ [.respond .ok 0x00]

/-- R200, R203 to R215, R163, R352: each `RD_*` from an idle block, with no line failure and no reset: the acceptance
cycle latches the request, and in exactly that cycle and the script's cycles it runs its whole script and ends OK with
RESULT the byte of the eight sampled bits, whatever they are, least significant first; the data line is left undefined with
`SHARED` and high with `SPLIT` (R158, R169). The exact cycles are R352 (the spec's decision D31), `upc` 0 at the end is log 5, and
where the direction is not OUT at the start, completing rests on the fix-up of decision D15 (log 18). -/
def Obligations.UndisturbedReadCompletes : Prop :=
  ∀ (s : State) (reg : ClockReg), ReadyWith s (encode (.readOf reg)) →
    let ops := readScriptFrom s reg
    let n := 1 + scriptCycles s.cfg ops
    s.noResetFor n = true → s.noFailFor (actionCount ops) →
    (∃ a, runN 1 s = .next a ∧ a.kind = .read ∧ a.cmd = cmdTable reg true ∧ a.wdata = 0x00 ∧ a.rx = 0x00 ∧ a.upc = 0 ∧
      (a.fix = true ↔ s.cfg.wiring = .shared ∧ s.ioDir ≠ .out) ∧
      a.trace = s.trace ++ [.accept (encode (.readOf reg))]) ∧
    (∀ k, 0 < k → k < n → ∃ u, runN k s = .next u ∧ u.mode = .busy ∧ u.rspValid = false ∧ u.host = s.host.tail) ∧
    ∃ t bits, runN n s = .next t ∧ SampledBits s.samples bits ∧ t.mode = .idle ∧ t.status = .ok ∧
      t.result = byteOfBits bits ∧ t.rspValid = true ∧
      t.ceUndef = false ∧ t.ce = .low ∧ t.sclk = .low ∧ t.ioDir = .out ∧
      t.kind = .read ∧ t.cmd = cmdTable reg true ∧ t.wdata = 0x00 ∧ t.rx = byteOfBits bits ∧
      (t.fix = true ↔ s.cfg.wiring = .shared ∧ s.ioDir ≠ .out) ∧ t.upc = 0 ∧ t.waitcnt = 0 ∧
      t.ioOut = (if s.cfg.wiring = .shared then .x else .high) ∧ t.refusedMark = s.refusedMark ∧
      t.samples = s.samples.drop 8 ∧ t.host = s.host.tail ∧
      t.trace = s.trace ++ [.accept (encode (.readOf reg))] ++ ops.map (eventOf bits) ++ [.respond .ok (byteOfBits bits)]

/-- R165, R112, R73: the bus trace of a completed transaction that starts with CE and SCLK low: one CE rise, exactly 8 clock
pulses with the command byte's bits on the data line at the rises, least significant first, exactly 8 for the data byte (its
bits likewise for a write), then one CE fall and no SCLK drive after it. -/
def Obligations.CompletedTransactionIsOneFrame : Prop :=
  ∀ (s : State) (reg : ClockReg), s.ceUndef = false →
    (∀ d : Byte, ReadyWith s (encode (.writeOf reg d)) →
      let ops := writeScriptFrom s reg d
      let n := 1 + scriptCycles s.cfg ops
      s.noResetFor n = true → s.noFailFor (actionCount ops) →
      ∃ t es, runN n s = .next t ∧
        t.trace = s.trace ++ [.accept (encode (.writeOf reg d))] ++ es ++ [.respond .ok 0x00] ∧
        Frame es (bitsLsbFirst (cmdTable reg false)) (some (bitsLsbFirst d))) ∧
    (ReadyWith s (encode (.readOf reg)) →
      let ops := readScriptFrom s reg
      let n := 1 + scriptCycles s.cfg ops
      s.noResetFor n = true → s.noFailFor (actionCount ops) →
      ∃ t es, runN n s = .next t ∧
        t.trace = s.trace ++ [.accept (encode (.readOf reg))] ++ es ++ [.respond .ok t.result] ∧
        Frame es (bitsLsbFirst (cmdTable reg true)) none)

/-- R305, R306, R311: a transaction whose first failing action stands at position `u` of its script: every action before it has
taken effect and is in the trace, the failing one's line is undefined, none after it runs, and the block is IDLE at once with
the error's status, RESULT 0x00 and CE undefined. The exact cycles are R352 (the spec's decision D31); where the direction is not
OUT at the start, the script's fix-up is decision D15 (log 18). -/
def Obligations.FirstFailureAbortsPrecisely : Prop :=
  ∀ (s : State) (w : ReqWord) (ops : List MicroOp),
    ((∃ reg d, w = encode (.writeOf reg d) ∧ ops = writeScriptFrom s reg d) ∨
      (∃ reg, w = encode (.readOf reg) ∧ ops = readScriptFrom s reg)) →
    ReadyWith s w → s.cfg.lineFailAdmitted = true →
    ∀ (u : Nat) (op : MicroOp) (kind : ErrKind) (rest : List Bool), ops[u]? = some op → op.errKind? = some kind →
    s.fails = List.replicate (actionCount (ops.take u)) false ++ true :: rest →
    let n := 1 + scriptCycles s.cfg (ops.take u) + 1
    s.noResetFor n = true →
    ∃ t bits, runN n s = .next t ∧ SampledBits s.samples bits ∧ t.mode = .idle ∧ t.status = .error kind ∧
      t.result = 0x00 ∧ t.rspValid = true ∧
      t.ce = .x ∧ t.ceUndef = true ∧ t.upc = 0 ∧ t.waitcnt = 0 ∧ t.fails = rest ∧
      t.sclk = (if op.drives .sclk then .x else levelAfter .sclk (ops.take u) s.sclk) ∧
      t.ioOut = (if op.drives .data then .x else levelAfter .data (ops.take u) s.ioOut) ∧
      t.ioDir = (if op.switches then .unk else dirAfter (ops.take u) s.ioDir) ∧
      t.trace = s.trace ++ [.accept w] ++ (ops.take u).map (eventOf bits) ++
        [.fail op kind, .respond (.error kind) 0x00]

/-- R161, R162, R352: the block's cycles refine the model-level step, in which a whole `Wait` and the whole reset recovery are
one step: as long as no reset event falls into it, `cyclesLeft` cycles from any state do what one model-level step does (log 3). -/
def Obligations.CyclesRefineTheModelStep : Prop :=
  ∀ s : State, s.noResetFor (cyclesLeft s) = true →
    (∀ t, microStep s = .next t → runN (cyclesLeft s) s = .next (t.tickBy (cyclesLeft s))) ∧
    (∀ r, microStep s = .fault r → runN (cyclesLeft s) s = .fault r)

/-- R43, R77: a running transaction ends, in a response, within the cycles its remaining script takes, whatever the
environment answers: a stalled host is not stalled for ever. -/
def Obligations.RunningTransactionEnds : Prop :=
  ∀ s : State, Inv s → s.mode = .busy →
    let n := scriptCycles s.cfg (s.script.drop s.upc)
    s.noResetFor n = true →
    ∃ k t, 0 < k ∧ k ≤ n ∧ runN k s = .next t ∧ t.mode = .idle ∧ t.rspValid = true

/-! ## The reference host sequences, outside the block -/

/-- R275, R276, R277, R281: the words a getter issues, given its responses, and the value it returns. In 12-hour mode the hours
other than 12 are as R277 gives them; 12 o'clock is the OPEN `HOUR12_MAP` (log 16). -/
def Obligations.GettersMaskThenDecode : Prop :=
  ∀ (p : HourParams) (r v : Byte),
    getSeconds.replay [(.ok, r), (.ok, v)] =
      ([0x8100, reqWord 0x02 (r &&& 0x7F)], some (.value v.toNat)) ∧
    (∀ reg, reg ≠ .sec → reg ≠ .hour → (getField p reg).replay [(.ok, r), (.ok, v)] =
      ([reqWord (cmdTable reg true) 0x00, reqWord 0x02 r], some (.value v.toNat))) ∧
    (r.getLsbD p.modeBit.val ≠ p.twelveValue → (getHour p).replay [(.ok, r), (.ok, v)] =
      ([0x8500, reqWord 0x02 (r &&& 0x3F)], some (.value v.toNat))) ∧
    (r.getLsbD p.modeBit.val = p.twelveValue → v.toNat ≠ 12 → (getHour p).replay [(.ok, r), (.ok, v)] =
      ([0x8500, reqWord 0x02 (r &&& 0x1F)],
        some (.value (if r.getLsbD p.pmBit.val then v.toNat + 12 else v.toNat)))) ∧
    isRunning.replay [(.ok, r)] = ([0x8100], some (.flag (decide (r.getLsbD 7 = false))))

/-- R278, R250: `set_seconds(v)` writes the halt flag it read, and below it the BCD digits of `v`. -/
def Obligations.SetSecondsKeepsTheHaltFlag : Prop :=
  ∀ (v : Nat) (r x : Byte), v ≤ 59 → ∃ d : Byte,
    (setSeconds v).replay [(.ok, r), (.ok, BitVec.ofNat 8 (bcdEncode v)), (.ok, x)] =
      ([0x8100, reqWord 0x01 (BitVec.ofNat 8 v), reqWord 0x80 d], some .written) ∧
    d.getLsbD 7 = r.getLsbD 7 ∧ d.toNat % 128 = v / 10 * 16 + v % 10

/-- R282: `set_running(b)` writes back the seconds register with only the halt flag altered: 0 to run, 1 to halt. -/
def Obligations.SetRunningAltersOnlyTheHaltFlag : Prop :=
  ∀ (b : Bool) (r x : Byte), ∃ d : Byte,
    (setRunning b).replay [(.ok, r), (.ok, x)] = ([0x8100, reqWord 0x80 d], some .written) ∧
    d.getLsbD 7 = !b ∧ ∀ k, k < 7 → d.getLsbD k = r.getLsbD k

/-- R283: every sequence ends at the first response that is not OK and returns its status; after a failed read of a
read-modify-write no write is issued. R270: run against the block, it waits for each response: whatever result it comes to, from
any state without a running request, is the result of replaying the responses the block gave meanwhile, and the words accepted
meanwhile are those it issued, no more. -/
def Obligations.SequencesEndAtTheFirstError : Prop :=
  (∀ (q : HostSeq) (oks : List Byte) (st : Status) (d : Byte) (rest : List (Status × Byte)), st ≠ .ok →
    (q.replay (oks.map fun b => (.ok, b))).2 = none →
    (q.replay ((oks.map fun b => (.ok, b)) ++ (st, d) :: rest)).2 = some (.failed st) ∧
    (q.replay ((oks.map fun b => (.ok, b)) ++ (st, d) :: rest)).1 = (q.replay (oks.map fun b => (.ok, b))).1) ∧
  ∀ (q : HostSeq) (fuel : Nat) (s t : State) (r : HostResult), s.mode ≠ .busy → q.onBlock fuel s = .next (some r, t) →
    ∃ es, t.trace = s.trace ++ es ∧ q.replay (responsesIn es) = (acceptedIn es, some r)

/-- R284: with every response OK, a getter, `is_running` and a direct setter issue exactly one bus transaction, `set_seconds`
and `set_running` two. -/
def Obligations.TransactionsPerSequence : Prop :=
  ∀ (p : HourParams) (x y z : Byte),
    let count (q : HostSeq) : Nat := (q.replay [(.ok, x), (.ok, y), (.ok, z)]).1.countP isTransaction
    (∀ reg, count (getField p reg) = 1) ∧ count isRunning = 1 ∧ (∀ b, count (setRunning b) = 2) ∧
    (∀ reg v, inRange reg v = true → count (setField reg v) = if reg = .sec then 2 else 1) ∧
    (∀ reg v, inRange reg v = false → count (setField reg v) = 0)

/-- R275, R203, R251: `get_seconds` run against the block, whatever byte the environment answers: it returns the two digits of
the sampled byte without its halt flag. Where the direction is not OUT at the start, completing rests on the fix-up of the spec's
decision D15 (log 18). -/
def Obligations.GetSecondsOnTheBlock : Prop :=
  ∀ (s : State) (bits rest : List Bool) (fuel : Nat), s.mode = .idle → Inv s → bits.length = 8 → s.samples = bits ++ rest →
    1 + scriptCycles s.cfg (readScriptFrom s .sec) ≤ fuel →
    s.noResetFor (scriptCycles s.cfg (readScriptFrom s .sec) + 2) = true →
    s.noFailFor (actionCount (readScriptFrom s .sec)) →
    ∃ t, getSeconds.onBlock fuel s =
      .next (some (.value ((byteOfBits bits).toNat % 16 + (byteOfBits bits).toNat % 128 / 16 * 10)), t) ∧ t.mode = .idle

/-! ## The request text -/

/-- R122, R123: the word of every form of request text, for every register, and for every operand token that is a literal;
the literals in decimal, hexadecimal and binary (with `_` anywhere after `0b`), and nothing above their range; the comment.
Letter case, spacing, how many digits a literal has, where `_` may stand, and the forms of the `.word` literal are the model's
(log 20). -/
def Obligations.RequestTextAssembles : Prop :=
  (∀ reg : ClockReg,
    assembleLine (['R', 'D', '_'] ++ ClockReg.text reg) = some (BitVec.ofNat 16 ((0x81 + 2 * reg.index.toNat) * 256)) ∧
    assembleLine (['R', 'D', ' '] ++ ClockReg.text reg) = some (BitVec.ofNat 16 ((0x81 + 2 * reg.index.toNat) * 256)) ∧
    ∀ rd : Bool, assembleLine (['A', 'D', 'D', 'R', 'E', 'N', 'C', ' '] ++ ClockReg.text reg ++ [',', ' ', if rd then 'R' else 'W']) =
      some (BitVec.ofNat 16 (0x0300 + 2 * reg.index.toNat + rd.toNat))) ∧
  (∀ (x : List Char) (v : Byte), imm8Of x = some v →
    (∀ reg : ClockReg,
      assembleLine (['W', 'R', '_'] ++ ClockReg.text reg ++ [' '] ++ x) =
        some (BitVec.ofNat 16 ((0x80 + 2 * reg.index.toNat) * 256 + v.toNat)) ∧
      assembleLine (['W', 'R', ' '] ++ ClockReg.text reg ++ [',', ' '] ++ x) =
        some (BitVec.ofNat 16 ((0x80 + 2 * reg.index.toNat) * 256 + v.toNat))) ∧
    assembleLine (['B', 'C', 'D', 'E', 'N', 'C', ' '] ++ x) =
      (if v.toNat ≤ 99 then some (BitVec.ofNat 16 (0x0100 + v.toNat)) else none) ∧
    assembleLine (['B', 'C', 'D', 'D', 'E', 'C', ' '] ++ x) = some (BitVec.ofNat 16 (0x0200 + v.toNat)) ∧
    assembleLine (['B', 'R', 'E', 'V', ' '] ++ x) = some (BitVec.ofNat 16 (0x0400 + v.toNat))) ∧
  (∀ (x : List Char) (n : Nat), literalOf 16 x = some n →
    assembleLine (['.', 'w', 'o', 'r', 'd', ' '] ++ x) = some (BitVec.ofNat 16 n)) ∧
  (∀ n, n < 256 → imm8Of (Nat.toDigits 10 n) = some (BitVec.ofNat 8 n)) ∧
  (∀ n, 256 ≤ n → n < 1000 → imm8Of (Nat.toDigits 10 n) = none) ∧
  (∀ a b, a < 16 → b < 16 → imm8Of ['0', 'x', Nat.digitChar a, Nat.digitChar b] = some (BitVec.ofNat 8 (16 * a + b))) ∧
  (∀ a b c d, a < 16 → b < 16 → c < 16 → d < 16 →
    literalOf 16 ['0', 'x', Nat.digitChar a, Nat.digitChar b, Nat.digitChar c, Nat.digitChar d] =
      some (4096 * a + 256 * b + 16 * c + d)) ∧
  (∀ bits : List Bool, bits ≠ [] → bits.length ≤ 8 → imm8Of ('0' :: 'b' :: bits.map fun b => if b then '1' else '0') =
    some (BitVec.ofNat 8 (bits.foldl (fun n b => 2 * n + b.toNat) 0))) ∧
  (∀ ds : List Char, imm8Of ('0' :: 'b' :: ds) = imm8Of ('0' :: 'b' :: ds.filter (· != '_'))) ∧
  ∀ line comment : List Char, parseLine (line ++ ';' :: comment) = parseLine line
end

