-- ==== Sys2Proof/Laws/Decode.lean ====
section
/-! SUPPORT. The two fields of a request word (30_encoding.md R100). -/

namespace Sys2Proof

/-- Bit `i` of a request word built from its fields. -/
theorem getLsbD_reqWord (op opd : Byte) (i : Nat) :
    (reqWord op opd).getLsbD i = if i < 8 then opd.getLsbD i else op.getLsbD (i - 8) :=
  BitVec.getLsbD_append

theorem opField_reqWord (op opd : Byte) : opField (reqWord op opd) = op := by
  apply BitVec.eq_of_getLsbD_eq
  intro i hi
  simp [opField, getLsbD_reqWord, hi]

theorem opdField_reqWord (op opd : Byte) : opdField (reqWord op opd) = opd := by
  apply BitVec.eq_of_getLsbD_eq
  intro i hi
  simp [opdField, getLsbD_reqWord, hi]

/-- A request word is its two fields. -/
theorem reqWord_fields (w : ReqWord) : reqWord (opField w) (opdField w) = w := by
  apply BitVec.eq_of_getLsbD_eq
  intro i hi
  rw [getLsbD_reqWord]
  simp only [opField, opdField, BitVec.getLsbD_extractLsb']
  split
  · simp [*]
  · have : i - 8 < 8 := by omega
    simp only [this, decide_true, Bool.true_and]
    congr 1; omega

/-- Under the mask of the operation, only the operation is left. -/
theorem reqWord_and_op (op opd : Byte) : reqWord op opd &&& 0xFF00 = reqWord op 0 := by
  have h : (0xFF00 : ReqWord) = BitVec.allOnes 8 ++ 0#8 := by decide
  rw [h, reqWord, reqWord, BitVec.and_append, BitVec.and_allOnes, BitVec.and_zero]
  rfl

end Sys2Proof
end

