-- ==== Sys2Proof/Laws/State.lean ====
section
/-! SUPPORT. One lemma per field per shared update of the state, each true by rfl, so that no proof unfolds a record
update. -/

namespace Sys2Proof.Machine

/-! ## `log` -/

@[simp] theorem State.log_ce (s : State) (e : Event) : (s.log e).ce = s.ce := rfl
@[simp] theorem State.log_sclk (s : State) (e : Event) : (s.log e).sclk = s.sclk := rfl
@[simp] theorem State.log_ioDir (s : State) (e : Event) : (s.log e).ioDir = s.ioDir := rfl
@[simp] theorem State.log_ioOut (s : State) (e : Event) : (s.log e).ioOut = s.ioOut := rfl
@[simp] theorem State.log_mode (s : State) (e : Event) : (s.log e).mode = s.mode := rfl
@[simp] theorem State.log_kind (s : State) (e : Event) : (s.log e).kind = s.kind := rfl
@[simp] theorem State.log_cmd (s : State) (e : Event) : (s.log e).cmd = s.cmd := rfl
@[simp] theorem State.log_wdata (s : State) (e : Event) : (s.log e).wdata = s.wdata := rfl
@[simp] theorem State.log_fix (s : State) (e : Event) : (s.log e).fix = s.fix := rfl
@[simp] theorem State.log_upc (s : State) (e : Event) : (s.log e).upc = s.upc := rfl
@[simp] theorem State.log_waitcnt (s : State) (e : Event) : (s.log e).waitcnt = s.waitcnt := rfl
@[simp] theorem State.log_rx (s : State) (e : Event) : (s.log e).rx = s.rx := rfl
@[simp] theorem State.log_result (s : State) (e : Event) : (s.log e).result = s.result := rfl
@[simp] theorem State.log_status (s : State) (e : Event) : (s.log e).status = s.status := rfl
@[simp] theorem State.log_ceUndef (s : State) (e : Event) : (s.log e).ceUndef = s.ceUndef := rfl
@[simp] theorem State.log_rspValid (s : State) (e : Event) : (s.log e).rspValid = s.rspValid := rfl
@[simp] theorem State.log_refusedMark (s : State) (e : Event) : (s.log e).refusedMark = s.refusedMark := rfl
@[simp] theorem State.log_trace (s : State) (e : Event) : (s.log e).trace = s.trace ++ [e] := rfl
@[simp] theorem State.log_host (s : State) (e : Event) : (s.log e).host = s.host := rfl
@[simp] theorem State.log_resets (s : State) (e : Event) : (s.log e).resets = s.resets := rfl
@[simp] theorem State.log_fails (s : State) (e : Event) : (s.log e).fails = s.fails := rfl
@[simp] theorem State.log_samples (s : State) (e : Event) : (s.log e).samples = s.samples := rfl
@[simp] theorem State.log_draws (s : State) (e : Event) : (s.log e).draws = s.draws := rfl
@[simp] theorem State.log_cfg (s : State) (e : Event) : (s.log e).cfg = s.cfg := rfl

/-! ## `respond` -/

@[simp] theorem State.respond_ce (s : State) (st : Status) (d : Byte) : (s.respond st d).ce = s.ce := rfl
@[simp] theorem State.respond_sclk (s : State) (st : Status) (d : Byte) : (s.respond st d).sclk = s.sclk := rfl
@[simp] theorem State.respond_ioDir (s : State) (st : Status) (d : Byte) : (s.respond st d).ioDir = s.ioDir := rfl
@[simp] theorem State.respond_ioOut (s : State) (st : Status) (d : Byte) : (s.respond st d).ioOut = s.ioOut := rfl
@[simp] theorem State.respond_mode (s : State) (st : Status) (d : Byte) : (s.respond st d).mode = .idle := rfl
@[simp] theorem State.respond_kind (s : State) (st : Status) (d : Byte) : (s.respond st d).kind = s.kind := rfl
@[simp] theorem State.respond_cmd (s : State) (st : Status) (d : Byte) : (s.respond st d).cmd = s.cmd := rfl
@[simp] theorem State.respond_wdata (s : State) (st : Status) (d : Byte) : (s.respond st d).wdata = s.wdata := rfl
@[simp] theorem State.respond_fix (s : State) (st : Status) (d : Byte) : (s.respond st d).fix = s.fix := rfl
@[simp] theorem State.respond_upc (s : State) (st : Status) (d : Byte) : (s.respond st d).upc = s.upc := rfl
@[simp] theorem State.respond_waitcnt (s : State) (st : Status) (d : Byte) : (s.respond st d).waitcnt = s.waitcnt := rfl
@[simp] theorem State.respond_rx (s : State) (st : Status) (d : Byte) : (s.respond st d).rx = s.rx := rfl
@[simp] theorem State.respond_result (s : State) (st : Status) (d : Byte) : (s.respond st d).result = d := rfl
@[simp] theorem State.respond_status (s : State) (st : Status) (d : Byte) : (s.respond st d).status = st := rfl
@[simp] theorem State.respond_ceUndef (s : State) (st : Status) (d : Byte) : (s.respond st d).ceUndef = s.ceUndef := rfl
@[simp] theorem State.respond_rspValid (s : State) (st : Status) (d : Byte) : (s.respond st d).rspValid = true := rfl
@[simp] theorem State.respond_refusedMark (s : State) (st : Status) (d : Byte) : (s.respond st d).refusedMark = s.refusedMark := rfl
@[simp] theorem State.respond_trace (s : State) (st : Status) (d : Byte) : (s.respond st d).trace = s.trace := rfl
@[simp] theorem State.respond_host (s : State) (st : Status) (d : Byte) : (s.respond st d).host = s.host := rfl
@[simp] theorem State.respond_resets (s : State) (st : Status) (d : Byte) : (s.respond st d).resets = s.resets := rfl
@[simp] theorem State.respond_fails (s : State) (st : Status) (d : Byte) : (s.respond st d).fails = s.fails := rfl
@[simp] theorem State.respond_samples (s : State) (st : Status) (d : Byte) : (s.respond st d).samples = s.samples := rfl
@[simp] theorem State.respond_draws (s : State) (st : Status) (d : Byte) : (s.respond st d).draws = s.draws := rfl
@[simp] theorem State.respond_cfg (s : State) (st : Status) (d : Byte) : (s.respond st d).cfg = s.cfg := rfl

/-! ## `tick` -/

@[simp] theorem State.tick_ce (s : State) : (s.tick).ce = s.ce := rfl
@[simp] theorem State.tick_sclk (s : State) : (s.tick).sclk = s.sclk := rfl
@[simp] theorem State.tick_ioDir (s : State) : (s.tick).ioDir = s.ioDir := rfl
@[simp] theorem State.tick_ioOut (s : State) : (s.tick).ioOut = s.ioOut := rfl
@[simp] theorem State.tick_mode (s : State) : (s.tick).mode = s.mode := rfl
@[simp] theorem State.tick_kind (s : State) : (s.tick).kind = s.kind := rfl
@[simp] theorem State.tick_cmd (s : State) : (s.tick).cmd = s.cmd := rfl
@[simp] theorem State.tick_wdata (s : State) : (s.tick).wdata = s.wdata := rfl
@[simp] theorem State.tick_fix (s : State) : (s.tick).fix = s.fix := rfl
@[simp] theorem State.tick_upc (s : State) : (s.tick).upc = s.upc := rfl
@[simp] theorem State.tick_waitcnt (s : State) : (s.tick).waitcnt = s.waitcnt := rfl
@[simp] theorem State.tick_rx (s : State) : (s.tick).rx = s.rx := rfl
@[simp] theorem State.tick_result (s : State) : (s.tick).result = s.result := rfl
@[simp] theorem State.tick_status (s : State) : (s.tick).status = s.status := rfl
@[simp] theorem State.tick_ceUndef (s : State) : (s.tick).ceUndef = s.ceUndef := rfl
@[simp] theorem State.tick_rspValid (s : State) : (s.tick).rspValid = s.rspValid := rfl
@[simp] theorem State.tick_refusedMark (s : State) : (s.tick).refusedMark = s.refusedMark := rfl
@[simp] theorem State.tick_trace (s : State) : (s.tick).trace = s.trace := rfl
@[simp] theorem State.tick_host (s : State) : (s.tick).host = s.host := rfl
@[simp] theorem State.tick_resets (s : State) : (s.tick).resets = s.resets.tail := rfl
@[simp] theorem State.tick_fails (s : State) : (s.tick).fails = s.fails := rfl
@[simp] theorem State.tick_samples (s : State) : (s.tick).samples = s.samples := rfl
@[simp] theorem State.tick_draws (s : State) : (s.tick).draws = s.draws := rfl
@[simp] theorem State.tick_cfg (s : State) : (s.tick).cfg = s.cfg := rfl

/-! ## `presenting` -/

@[simp] theorem State.presenting_ce (s : State) (w : ReqWord) : (s.presenting w).ce = s.ce := rfl
@[simp] theorem State.presenting_sclk (s : State) (w : ReqWord) : (s.presenting w).sclk = s.sclk := rfl
@[simp] theorem State.presenting_ioDir (s : State) (w : ReqWord) : (s.presenting w).ioDir = s.ioDir := rfl
@[simp] theorem State.presenting_ioOut (s : State) (w : ReqWord) : (s.presenting w).ioOut = s.ioOut := rfl
@[simp] theorem State.presenting_mode (s : State) (w : ReqWord) : (s.presenting w).mode = .idle := rfl
@[simp] theorem State.presenting_kind (s : State) (w : ReqWord) : (s.presenting w).kind = s.kind := rfl
@[simp] theorem State.presenting_cmd (s : State) (w : ReqWord) : (s.presenting w).cmd = s.cmd := rfl
@[simp] theorem State.presenting_wdata (s : State) (w : ReqWord) : (s.presenting w).wdata = s.wdata := rfl
@[simp] theorem State.presenting_fix (s : State) (w : ReqWord) : (s.presenting w).fix = s.fix := rfl
@[simp] theorem State.presenting_upc (s : State) (w : ReqWord) : (s.presenting w).upc = s.upc := rfl
@[simp] theorem State.presenting_waitcnt (s : State) (w : ReqWord) : (s.presenting w).waitcnt = 0 := rfl
@[simp] theorem State.presenting_rx (s : State) (w : ReqWord) : (s.presenting w).rx = s.rx := rfl
@[simp] theorem State.presenting_result (s : State) (w : ReqWord) : (s.presenting w).result = s.result := rfl
@[simp] theorem State.presenting_status (s : State) (w : ReqWord) : (s.presenting w).status = s.status := rfl
@[simp] theorem State.presenting_ceUndef (s : State) (w : ReqWord) : (s.presenting w).ceUndef = s.ceUndef := rfl
@[simp] theorem State.presenting_rspValid (s : State) (w : ReqWord) : (s.presenting w).rspValid = s.rspValid := rfl
@[simp] theorem State.presenting_refusedMark (s : State) (w : ReqWord) : (s.presenting w).refusedMark = s.refusedMark := rfl
@[simp] theorem State.presenting_trace (s : State) (w : ReqWord) : (s.presenting w).trace = s.trace := rfl
@[simp] theorem State.presenting_host (s : State) (w : ReqWord) : (s.presenting w).host = some w :: s.host := rfl
@[simp] theorem State.presenting_resets (s : State) (w : ReqWord) : (s.presenting w).resets = s.resets.set 0 false := rfl
@[simp] theorem State.presenting_fails (s : State) (w : ReqWord) : (s.presenting w).fails = s.fails := rfl
@[simp] theorem State.presenting_samples (s : State) (w : ReqWord) : (s.presenting w).samples = s.samples := rfl
@[simp] theorem State.presenting_draws (s : State) (w : ReqWord) : (s.presenting w).draws = s.draws := rfl
@[simp] theorem State.presenting_cfg (s : State) (w : ReqWord) : (s.presenting w).cfg = s.cfg := rfl

/-! ## `acceptRead` -/

@[simp] theorem State.acceptRead_ce (s : State) (w : ReqWord) (c : Byte) : (s.acceptRead w c).ce = s.ce := rfl
@[simp] theorem State.acceptRead_sclk (s : State) (w : ReqWord) (c : Byte) : (s.acceptRead w c).sclk = s.sclk := rfl
@[simp] theorem State.acceptRead_ioDir (s : State) (w : ReqWord) (c : Byte) : (s.acceptRead w c).ioDir = s.ioDir := rfl
@[simp] theorem State.acceptRead_ioOut (s : State) (w : ReqWord) (c : Byte) : (s.acceptRead w c).ioOut = s.ioOut := rfl
@[simp] theorem State.acceptRead_mode (s : State) (w : ReqWord) (c : Byte) : (s.acceptRead w c).mode = .busy := rfl
@[simp] theorem State.acceptRead_kind (s : State) (w : ReqWord) (c : Byte) : (s.acceptRead w c).kind = .read := rfl
@[simp] theorem State.acceptRead_cmd (s : State) (w : ReqWord) (c : Byte) : (s.acceptRead w c).cmd = c := rfl
@[simp] theorem State.acceptRead_wdata (s : State) (w : ReqWord) (c : Byte) : (s.acceptRead w c).wdata = 0x00 := rfl
@[simp] theorem State.acceptRead_fix (s : State) (w : ReqWord) (c : Byte) : (s.acceptRead w c).fix = s.needsFix := rfl
@[simp] theorem State.acceptRead_upc (s : State) (w : ReqWord) (c : Byte) : (s.acceptRead w c).upc = 0 := rfl
@[simp] theorem State.acceptRead_waitcnt (s : State) (w : ReqWord) (c : Byte) : (s.acceptRead w c).waitcnt = s.waitcnt := rfl
@[simp] theorem State.acceptRead_rx (s : State) (w : ReqWord) (c : Byte) : (s.acceptRead w c).rx = 0x00 := rfl
@[simp] theorem State.acceptRead_result (s : State) (w : ReqWord) (c : Byte) : (s.acceptRead w c).result = s.result := rfl
@[simp] theorem State.acceptRead_status (s : State) (w : ReqWord) (c : Byte) : (s.acceptRead w c).status = s.status := rfl
@[simp] theorem State.acceptRead_ceUndef (s : State) (w : ReqWord) (c : Byte) : (s.acceptRead w c).ceUndef = s.ceUndef := rfl
@[simp] theorem State.acceptRead_rspValid (s : State) (w : ReqWord) (c : Byte) : (s.acceptRead w c).rspValid = false := rfl
@[simp] theorem State.acceptRead_refusedMark (s : State) (w : ReqWord) (c : Byte) : (s.acceptRead w c).refusedMark = s.refusedMark := rfl
@[simp] theorem State.acceptRead_trace (s : State) (w : ReqWord) (c : Byte) : (s.acceptRead w c).trace = s.trace ++ [.accept w] := rfl
@[simp] theorem State.acceptRead_host (s : State) (w : ReqWord) (c : Byte) : (s.acceptRead w c).host = s.host := rfl
@[simp] theorem State.acceptRead_resets (s : State) (w : ReqWord) (c : Byte) : (s.acceptRead w c).resets = s.resets := rfl
@[simp] theorem State.acceptRead_fails (s : State) (w : ReqWord) (c : Byte) : (s.acceptRead w c).fails = s.fails := rfl
@[simp] theorem State.acceptRead_samples (s : State) (w : ReqWord) (c : Byte) : (s.acceptRead w c).samples = s.samples := rfl
@[simp] theorem State.acceptRead_draws (s : State) (w : ReqWord) (c : Byte) : (s.acceptRead w c).draws = s.draws := rfl
@[simp] theorem State.acceptRead_cfg (s : State) (w : ReqWord) (c : Byte) : (s.acceptRead w c).cfg = s.cfg := rfl

/-! ## `acceptWrite` -/

@[simp] theorem State.acceptWrite_ce (s : State) (w : ReqWord) (c d : Byte) : (s.acceptWrite w c d).ce = s.ce := rfl
@[simp] theorem State.acceptWrite_sclk (s : State) (w : ReqWord) (c d : Byte) : (s.acceptWrite w c d).sclk = s.sclk := rfl
@[simp] theorem State.acceptWrite_ioDir (s : State) (w : ReqWord) (c d : Byte) : (s.acceptWrite w c d).ioDir = s.ioDir := rfl
@[simp] theorem State.acceptWrite_ioOut (s : State) (w : ReqWord) (c d : Byte) : (s.acceptWrite w c d).ioOut = s.ioOut := rfl
@[simp] theorem State.acceptWrite_mode (s : State) (w : ReqWord) (c d : Byte) : (s.acceptWrite w c d).mode = .busy := rfl
@[simp] theorem State.acceptWrite_kind (s : State) (w : ReqWord) (c d : Byte) : (s.acceptWrite w c d).kind = .write := rfl
@[simp] theorem State.acceptWrite_cmd (s : State) (w : ReqWord) (c d : Byte) : (s.acceptWrite w c d).cmd = c := rfl
@[simp] theorem State.acceptWrite_wdata (s : State) (w : ReqWord) (c d : Byte) : (s.acceptWrite w c d).wdata = d := rfl
@[simp] theorem State.acceptWrite_fix (s : State) (w : ReqWord) (c d : Byte) : (s.acceptWrite w c d).fix = s.needsFix := rfl
@[simp] theorem State.acceptWrite_upc (s : State) (w : ReqWord) (c d : Byte) : (s.acceptWrite w c d).upc = 0 := rfl
@[simp] theorem State.acceptWrite_waitcnt (s : State) (w : ReqWord) (c d : Byte) : (s.acceptWrite w c d).waitcnt = s.waitcnt := rfl
@[simp] theorem State.acceptWrite_rx (s : State) (w : ReqWord) (c d : Byte) : (s.acceptWrite w c d).rx = s.rx := rfl
@[simp] theorem State.acceptWrite_result (s : State) (w : ReqWord) (c d : Byte) : (s.acceptWrite w c d).result = s.result := rfl
@[simp] theorem State.acceptWrite_status (s : State) (w : ReqWord) (c d : Byte) : (s.acceptWrite w c d).status = s.status := rfl
@[simp] theorem State.acceptWrite_ceUndef (s : State) (w : ReqWord) (c d : Byte) : (s.acceptWrite w c d).ceUndef = s.ceUndef := rfl
@[simp] theorem State.acceptWrite_rspValid (s : State) (w : ReqWord) (c d : Byte) : (s.acceptWrite w c d).rspValid = false := rfl
@[simp] theorem State.acceptWrite_refusedMark (s : State) (w : ReqWord) (c d : Byte) : (s.acceptWrite w c d).refusedMark = s.refusedMark := rfl
@[simp] theorem State.acceptWrite_trace (s : State) (w : ReqWord) (c d : Byte) : (s.acceptWrite w c d).trace = s.trace ++ [.accept w] := rfl
@[simp] theorem State.acceptWrite_host (s : State) (w : ReqWord) (c d : Byte) : (s.acceptWrite w c d).host = s.host := rfl
@[simp] theorem State.acceptWrite_resets (s : State) (w : ReqWord) (c d : Byte) : (s.acceptWrite w c d).resets = s.resets := rfl
@[simp] theorem State.acceptWrite_fails (s : State) (w : ReqWord) (c d : Byte) : (s.acceptWrite w c d).fails = s.fails := rfl
@[simp] theorem State.acceptWrite_samples (s : State) (w : ReqWord) (c d : Byte) : (s.acceptWrite w c d).samples = s.samples := rfl
@[simp] theorem State.acceptWrite_draws (s : State) (w : ReqWord) (c d : Byte) : (s.acceptWrite w c d).draws = s.draws := rfl
@[simp] theorem State.acceptWrite_cfg (s : State) (w : ReqWord) (c d : Byte) : (s.acceptWrite w c d).cfg = s.cfg := rfl

/-! ## `answer` -/

@[simp] theorem State.answer_ce (s : State) (w : ReqWord) (r : Byte) : (s.answer w r).ce = s.ce := rfl
@[simp] theorem State.answer_sclk (s : State) (w : ReqWord) (r : Byte) : (s.answer w r).sclk = s.sclk := rfl
@[simp] theorem State.answer_ioDir (s : State) (w : ReqWord) (r : Byte) : (s.answer w r).ioDir = s.ioDir := rfl
@[simp] theorem State.answer_ioOut (s : State) (w : ReqWord) (r : Byte) : (s.answer w r).ioOut = s.ioOut := rfl
@[simp] theorem State.answer_mode (s : State) (w : ReqWord) (r : Byte) : (s.answer w r).mode = .idle := rfl
@[simp] theorem State.answer_kind (s : State) (w : ReqWord) (r : Byte) : (s.answer w r).kind = s.kind := rfl
@[simp] theorem State.answer_cmd (s : State) (w : ReqWord) (r : Byte) : (s.answer w r).cmd = s.cmd := rfl
@[simp] theorem State.answer_wdata (s : State) (w : ReqWord) (r : Byte) : (s.answer w r).wdata = s.wdata := rfl
@[simp] theorem State.answer_fix (s : State) (w : ReqWord) (r : Byte) : (s.answer w r).fix = s.fix := rfl
@[simp] theorem State.answer_upc (s : State) (w : ReqWord) (r : Byte) : (s.answer w r).upc = s.upc := rfl
@[simp] theorem State.answer_waitcnt (s : State) (w : ReqWord) (r : Byte) : (s.answer w r).waitcnt = s.waitcnt := rfl
@[simp] theorem State.answer_rx (s : State) (w : ReqWord) (r : Byte) : (s.answer w r).rx = s.rx := rfl
@[simp] theorem State.answer_result (s : State) (w : ReqWord) (r : Byte) : (s.answer w r).result = r := rfl
@[simp] theorem State.answer_status (s : State) (w : ReqWord) (r : Byte) : (s.answer w r).status = .ok := rfl
@[simp] theorem State.answer_ceUndef (s : State) (w : ReqWord) (r : Byte) : (s.answer w r).ceUndef = s.ceUndef := rfl
@[simp] theorem State.answer_rspValid (s : State) (w : ReqWord) (r : Byte) : (s.answer w r).rspValid = true := rfl
@[simp] theorem State.answer_refusedMark (s : State) (w : ReqWord) (r : Byte) : (s.answer w r).refusedMark = s.refusedMark := rfl
@[simp] theorem State.answer_trace (s : State) (w : ReqWord) (r : Byte) : (s.answer w r).trace = s.trace ++ [.accept w] ++ [.respond .ok r] := rfl
@[simp] theorem State.answer_host (s : State) (w : ReqWord) (r : Byte) : (s.answer w r).host = s.host := rfl
@[simp] theorem State.answer_resets (s : State) (w : ReqWord) (r : Byte) : (s.answer w r).resets = s.resets := rfl
@[simp] theorem State.answer_fails (s : State) (w : ReqWord) (r : Byte) : (s.answer w r).fails = s.fails := rfl
@[simp] theorem State.answer_samples (s : State) (w : ReqWord) (r : Byte) : (s.answer w r).samples = s.samples := rfl
@[simp] theorem State.answer_draws (s : State) (w : ReqWord) (r : Byte) : (s.answer w r).draws = s.draws := rfl
@[simp] theorem State.answer_cfg (s : State) (w : ReqWord) (r : Byte) : (s.answer w r).cfg = s.cfg := rfl

/-! ## `refuse` -/

@[simp] theorem State.refuse_ce (s : State) (w : ReqWord) : (s.refuse w).ce = s.ce := rfl
@[simp] theorem State.refuse_sclk (s : State) (w : ReqWord) : (s.refuse w).sclk = s.sclk := rfl
@[simp] theorem State.refuse_ioDir (s : State) (w : ReqWord) : (s.refuse w).ioDir = s.ioDir := rfl
@[simp] theorem State.refuse_ioOut (s : State) (w : ReqWord) : (s.refuse w).ioOut = s.ioOut := rfl
@[simp] theorem State.refuse_mode (s : State) (w : ReqWord) : (s.refuse w).mode = .idle := rfl
@[simp] theorem State.refuse_kind (s : State) (w : ReqWord) : (s.refuse w).kind = s.kind := rfl
@[simp] theorem State.refuse_cmd (s : State) (w : ReqWord) : (s.refuse w).cmd = s.cmd := rfl
@[simp] theorem State.refuse_wdata (s : State) (w : ReqWord) : (s.refuse w).wdata = s.wdata := rfl
@[simp] theorem State.refuse_fix (s : State) (w : ReqWord) : (s.refuse w).fix = s.fix := rfl
@[simp] theorem State.refuse_upc (s : State) (w : ReqWord) : (s.refuse w).upc = s.upc := rfl
@[simp] theorem State.refuse_waitcnt (s : State) (w : ReqWord) : (s.refuse w).waitcnt = s.waitcnt := rfl
@[simp] theorem State.refuse_rx (s : State) (w : ReqWord) : (s.refuse w).rx = s.rx := rfl
@[simp] theorem State.refuse_result (s : State) (w : ReqWord) : (s.refuse w).result = 0x00 := rfl
@[simp] theorem State.refuse_status (s : State) (w : ReqWord) : (s.refuse w).status = .refused := rfl
@[simp] theorem State.refuse_ceUndef (s : State) (w : ReqWord) : (s.refuse w).ceUndef = s.ceUndef := rfl
@[simp] theorem State.refuse_rspValid (s : State) (w : ReqWord) : (s.refuse w).rspValid = true := rfl
@[simp] theorem State.refuse_refusedMark (s : State) (w : ReqWord) : (s.refuse w).refusedMark = true := rfl
@[simp] theorem State.refuse_trace (s : State) (w : ReqWord) : (s.refuse w).trace = s.trace ++ [.accept w] ++ [.respond .refused 0x00] := rfl
@[simp] theorem State.refuse_host (s : State) (w : ReqWord) : (s.refuse w).host = s.host := rfl
@[simp] theorem State.refuse_resets (s : State) (w : ReqWord) : (s.refuse w).resets = s.resets := rfl
@[simp] theorem State.refuse_fails (s : State) (w : ReqWord) : (s.refuse w).fails = s.fails := rfl
@[simp] theorem State.refuse_samples (s : State) (w : ReqWord) : (s.refuse w).samples = s.samples := rfl
@[simp] theorem State.refuse_draws (s : State) (w : ReqWord) : (s.refuse w).draws = s.draws := rfl
@[simp] theorem State.refuse_cfg (s : State) (w : ReqWord) : (s.refuse w).cfg = s.cfg := rfl

/-! ## `complete` -/

@[simp] theorem State.complete_ce (s : State) : (s.complete).ce = s.ce := rfl
@[simp] theorem State.complete_sclk (s : State) : (s.complete).sclk = s.sclk := rfl
@[simp] theorem State.complete_ioDir (s : State) : (s.complete).ioDir = s.ioDir := rfl
@[simp] theorem State.complete_ioOut (s : State) : (s.complete).ioOut = s.ioOut := rfl
@[simp] theorem State.complete_mode (s : State) : (s.complete).mode = .idle := rfl
@[simp] theorem State.complete_kind (s : State) : (s.complete).kind = s.kind := rfl
@[simp] theorem State.complete_cmd (s : State) : (s.complete).cmd = s.cmd := rfl
@[simp] theorem State.complete_wdata (s : State) : (s.complete).wdata = s.wdata := rfl
@[simp] theorem State.complete_fix (s : State) : (s.complete).fix = s.fix := rfl
@[simp] theorem State.complete_upc (s : State) : (s.complete).upc = 0 := rfl
@[simp] theorem State.complete_waitcnt (s : State) : (s.complete).waitcnt = s.waitcnt := rfl
@[simp] theorem State.complete_rx (s : State) : (s.complete).rx = s.rx := rfl
@[simp] theorem State.complete_result (s : State) : (s.complete).result = s.completionData := rfl
@[simp] theorem State.complete_status (s : State) : (s.complete).status = .ok := rfl
@[simp] theorem State.complete_ceUndef (s : State) : (s.complete).ceUndef = false := rfl
@[simp] theorem State.complete_rspValid (s : State) : (s.complete).rspValid = true := rfl
@[simp] theorem State.complete_refusedMark (s : State) : (s.complete).refusedMark = s.refusedMark := rfl
@[simp] theorem State.complete_trace (s : State) : (s.complete).trace = s.trace ++ [.respond .ok s.completionData] := rfl
@[simp] theorem State.complete_host (s : State) : (s.complete).host = s.host := rfl
@[simp] theorem State.complete_resets (s : State) : (s.complete).resets = s.resets := rfl
@[simp] theorem State.complete_fails (s : State) : (s.complete).fails = s.fails := rfl
@[simp] theorem State.complete_samples (s : State) : (s.complete).samples = s.samples := rfl
@[simp] theorem State.complete_draws (s : State) : (s.complete).draws = s.draws := rfl
@[simp] theorem State.complete_cfg (s : State) : (s.complete).cfg = s.cfg := rfl

/-! ## `applyReset` -/

@[simp] theorem State.applyReset_ce (s : State) : (s.applyReset).ce = .low := rfl
@[simp] theorem State.applyReset_sclk (s : State) : (s.applyReset).sclk = .low := rfl
@[simp] theorem State.applyReset_ioDir (s : State) : (s.applyReset).ioDir = .out := rfl
@[simp] theorem State.applyReset_ioOut (s : State) : (s.applyReset).ioOut = .low := rfl
@[simp] theorem State.applyReset_mode (s : State) : (s.applyReset).mode = .rstWait := rfl
@[simp] theorem State.applyReset_kind (s : State) : (s.applyReset).kind = .write := rfl
@[simp] theorem State.applyReset_cmd (s : State) : (s.applyReset).cmd = 0x00 := rfl
@[simp] theorem State.applyReset_wdata (s : State) : (s.applyReset).wdata = 0x00 := rfl
@[simp] theorem State.applyReset_fix (s : State) : (s.applyReset).fix = false := rfl
@[simp] theorem State.applyReset_upc (s : State) : (s.applyReset).upc = 0 := rfl
@[simp] theorem State.applyReset_waitcnt (s : State) : (s.applyReset).waitcnt = cycles s.cfg .ceRecover := rfl
@[simp] theorem State.applyReset_rx (s : State) : (s.applyReset).rx = 0x00 := rfl
@[simp] theorem State.applyReset_result (s : State) : (s.applyReset).result = 0x00 := rfl
@[simp] theorem State.applyReset_status (s : State) : (s.applyReset).status = .ok := rfl
@[simp] theorem State.applyReset_ceUndef (s : State) : (s.applyReset).ceUndef = false := rfl
@[simp] theorem State.applyReset_rspValid (s : State) : (s.applyReset).rspValid = false := rfl
@[simp] theorem State.applyReset_refusedMark (s : State) : (s.applyReset).refusedMark = false := rfl
@[simp] theorem State.applyReset_trace (s : State) : (s.applyReset).trace = s.trace ++ [.reset] := rfl
@[simp] theorem State.applyReset_host (s : State) : (s.applyReset).host = s.host := rfl
@[simp] theorem State.applyReset_resets (s : State) : (s.applyReset).resets = s.resets := rfl
@[simp] theorem State.applyReset_fails (s : State) : (s.applyReset).fails = s.fails := rfl
@[simp] theorem State.applyReset_samples (s : State) : (s.applyReset).samples = s.samples := rfl
@[simp] theorem State.applyReset_draws (s : State) : (s.applyReset).draws = s.draws := rfl
@[simp] theorem State.applyReset_cfg (s : State) : (s.applyReset).cfg = s.cfg := rfl

end Sys2Proof.Machine
end

