-- ==== Sys2Proof/Laws/Ops.lean ====
section
/-! SUPPORT. What each shared operation can do, said once. -/

namespace Sys2Proof.Machine

/-! ## The environment's draws -/

/-- A draw moves only the environment's own fields. -/
theorem State.drawFail_eq (s : State) :
    s.drawFail.2 = { s with fails := s.drawFail.2.fails, draws := s.drawFail.2.draws } := by
  unfold State.drawFail; split <;> rfl

/-- A draw moves only the environment's own fields. -/
theorem State.actionFails_eq (s : State) :
    s.actionFails.2 = { s with fails := s.actionFails.2.fails, draws := s.actionFails.2.draws } := by
  unfold State.actionFails
  split
  · exact s.drawFail_eq
  · rfl

/-- A draw moves only the environment's own fields. -/
theorem State.drawSample_eq (s : State) :
    s.drawSample.2 = { s with samples := s.drawSample.2.samples, draws := s.drawSample.2.draws } := by
  unfold State.drawSample; split <;> rfl

/-- With `LINE_FAIL_ADMITTED` false no action fails (D21). -/
theorem State.actionFails_of_not_admitted {s : State} (h : s.cfg.lineFailAdmitted = false) :
    s.actionFails = (false, s) := by
  simp [State.actionFails, h]

/-- A placed answer is the one drawn. -/
theorem State.actionFails_of_placed {s : State} {b : Bool} {rest : List Bool} (h : s.cfg.lineFailAdmitted = true)
    (hf : s.fails = b :: rest) : s.actionFails = (b, { s with fails := rest }) := by
  simp [State.actionFails, h, State.drawFail, hf]

/-- A placed sample is the one drawn. -/
theorem State.drawSample_of_placed {s : State} {b : Bool} {rest : List Bool} (hf : s.samples = b :: rest) :
    s.drawSample = (b, { s with samples := rest }) := by
  simp [State.drawSample, hf]

/-! ## Completing a micro-op -/

/-- A completed micro-op either advances `upc` or, at the end of the script, ends the request (R49, R162). -/
theorem State.completeMicroOp_cases (s : State) :
    (s.upc + 1 = s.script.length ∧ s.completeMicroOp = s.complete) ∨
      (s.upc + 1 ≠ s.script.length ∧ s.completeMicroOp = { s with upc := s.upc + 1 }) := by
  unfold State.completeMicroOp
  split
  · exact .inl ⟨‹_›, rfl⟩
  · exact .inr ⟨‹_›, rfl⟩

/-- The script depends only on the latched inputs and the configuration (R30). -/
theorem State.script_congr {s t : State} (hk : t.kind = s.kind) (hc : t.cmd = s.cmd) (hd : t.wdata = s.wdata)
    (hf : t.fix = s.fix) (hg : t.cfg = s.cfg) : t.script = s.script := by
  simp [State.script, hk, hc, hd, hf, hg]

@[simp] theorem State.script_log (s : State) (e : Event) : (s.log e).script = s.script := rfl
@[simp] theorem State.script_tick (s : State) : s.tick.script = s.script := rfl

/-! ## One cycle of a micro-op -/

/-- What an action that fails leaves, and the kind it reports (R157 to R159). -/
def MicroOp.failure : MicroOp → ErrKind × Failed
  | .drive line _ => (line.err, .line line)
  | .setDir way   => (way.err, .dir)
  | .sample _     => (.read, .nothing)
  | .wait _       => (.read, .nothing)

/-- A cycle of an action either aborts at it or performs it and completes it (R157 to R159). -/
theorem execMicroOp_action_cases {op : MicroOp} (s : State) (h : op.isAction = true) :
    (s.actionFails.1 = true ∧ execMicroOp op s = s.actionFails.2.abort op op.failure.1 op.failure.2) ∨
      (s.actionFails.1 = false ∧ ∃ u : State, execMicroOp op s = u.completeMicroOp) := by
  cases op with
  | wait t => simp [MicroOp.isAction] at h
  | drive line high =>
    cases hb : s.actionFails.1
    · exact .inr ⟨rfl, _, by simp only [execMicroOp, execDrive, hb]; rfl⟩
    · exact .inl ⟨rfl, by simp only [execMicroOp, execDrive, hb]; rfl⟩
  | setDir way =>
    cases hb : s.actionFails.1
    · exact .inr ⟨rfl, _, by simp only [execMicroOp, execSetDir, hb]; rfl⟩
    · exact .inl ⟨rfl, by simp only [execMicroOp, execSetDir, hb]; rfl⟩
  | sample i =>
    cases hb : s.actionFails.1
    · exact .inr ⟨rfl, _, by simp only [execMicroOp, execSample, hb]; rfl⟩
    · exact .inl ⟨rfl, by simp only [execMicroOp, execSample, hb]; rfl⟩

/-- A cycle of a `Wait` either completes it or counts down (R161). -/
theorem execWait_cases (t : WaitParam) (s : State) :
    (waitCount t s ≤ 1 ∧ execWait t s = finishWait t s) ∨
      (1 < waitCount t s ∧ execWait t s = { s with waitcnt := waitCount t s - 1 }) := by
  unfold execWait
  split
  · exact .inl ⟨‹_›, rfl⟩
  · exact .inr ⟨by omega, rfl⟩

/-! ## The abort, the block's one exception entry (R305) -/

/-- Every field after an abort, written out (R305, R306). -/
theorem State.abort_eq (s : State) (action : MicroOp) (kind : ErrKind) (failed : Failed) :
    s.abort action kind failed =
      { s with
        ce := .x
        sclk := if failed = .line .sclk then .x else s.sclk
        ioOut := if failed = .line .data then .x else s.ioOut
        ioDir := if failed = .dir then .unk else s.ioDir
        ceUndef := true, upc := 0, waitcnt := 0, status := .error kind, result := 0x00, rspValid := true, mode := .idle
        trace := s.trace ++ [.fail action kind] ++ [.respond (.error kind) 0x00] } := by
  cases failed with
  | line l => cases l <;> rfl
  | dir => rfl
  | nothing => rfl

/-! ## One block cycle -/

/-- What one block cycle can do: reset, wait for a request, take a request, run a micro-op, stop past the script, or
count the reset recovery (R34, R42, R162, R341, R342). -/
theorem step_cases (s : State) :
    (s.resetNow = true ∧ step s = .next s.tick.applyReset) ∨
    (s.resetNow = false ∧ s.mode = .idle ∧ s.reqShown = none ∧ step s = .next s.tick.takeRequest.2) ∨
    (s.resetNow = false ∧ s.mode = .idle ∧ ∃ w, s.reqShown = some w ∧
      ((∃ i, decode w = some i ∧ step s = exec i s.tick.takeRequest.2) ∨
       (decode w = none ∧ step s = .next (s.tick.takeRequest.2.refuse w)))) ∨
    (s.resetNow = false ∧ s.mode = .busy ∧ ∃ op, s.currentOp = some op ∧ step s = .next (execMicroOp op s.tick)) ∨
    (s.resetNow = false ∧ s.mode = .busy ∧ s.currentOp = none ∧ step s = .fault .scriptOverrun) ∨
    (s.resetNow = false ∧ s.mode = .rstWait ∧ step s = .next (recoveryCycle s.tick)) := by
  unfold step clockCycle
  cases hr : s.resetNow
  · cases hm : s.mode
    · right
      cases hq : s.reqShown with
      | none =>
        refine .inl ⟨rfl, rfl, rfl, ?_⟩
        have : s.tick.reqShown = none := hq
        simp [idleCycle, State.takeRequest, this]
      | some w =>
        have hq' : s.tick.reqShown = some w := hq
        refine .inr (.inl ⟨rfl, rfl, w, rfl, ?_⟩)
        cases hd : decode w with
        | none => exact .inr ⟨rfl, by simp [idleCycle, State.takeRequest, hq', hd]⟩
        | some i => exact .inl ⟨i, rfl, by simp [idleCycle, State.takeRequest, hq', hd]⟩
    · right; right; right
      have ht : s.tick.currentOp = s.currentOp := rfl
      cases ho : s.currentOp with
      | none => exact .inr (.inl ⟨rfl, rfl, rfl, by simp [busyCycle, ht, ho]⟩)
      | some op => exact .inl ⟨rfl, rfl, op, rfl, by simp [busyCycle, ht, ho]⟩
    · right; right; right; right; right
      exact ⟨rfl, rfl, rfl⟩
  · exact .inl ⟨rfl, rfl⟩

/-- What accepting a request can do: start a read, start a write, answer, or refuse (R200, R201, R231, R232, R250, R251). -/
theorem exec_cases (i : Instr) (s : State) :
    (∃ reg, i = .readOf reg ∧ exec i s = .next (s.acceptRead (encode i) (cmdTable reg true))) ∨
    (∃ reg d, i = .writeOf reg d ∧ exec i s = .next (s.acceptWrite (encode i) (cmdTable reg false) d)) ∨
    (i.wf = true ∧ ∃ r, exec i s = .next (s.answer (encode i) r)) ∨
    (i.wf = false ∧ exec i s = .next (s.refuse (encode i))) := by
  cases i with
  | wrSec d => exact .inr (.inl ⟨.sec, d, rfl, rfl⟩)
  | wrMin d => exact .inr (.inl ⟨.min, d, rfl, rfl⟩)
  | wrHour d => exact .inr (.inl ⟨.hour, d, rfl, rfl⟩)
  | wrDate d => exact .inr (.inl ⟨.date, d, rfl, rfl⟩)
  | wrMonth d => exact .inr (.inl ⟨.month, d, rfl, rfl⟩)
  | wrDay d => exact .inr (.inl ⟨.day, d, rfl, rfl⟩)
  | wrYear d => exact .inr (.inl ⟨.year, d, rfl, rfl⟩)
  | rdSec => exact .inl ⟨.sec, rfl, rfl⟩
  | rdMin => exact .inl ⟨.min, rfl, rfl⟩
  | rdHour => exact .inl ⟨.hour, rfl, rfl⟩
  | rdDate => exact .inl ⟨.date, rfl, rfl⟩
  | rdMonth => exact .inl ⟨.month, rfl, rfl⟩
  | rdDay => exact .inl ⟨.day, rfl, rfl⟩
  | rdYear => exact .inl ⟨.year, rfl, rfl⟩
  | bcdenc v =>
    by_cases h : v.toNat ≤ 99
    · exact .inr (.inr (.inl ⟨by simp [Instr.wf, h], _, by simp [exec, execBcdenc, h]; rfl⟩))
    · exact .inr (.inr (.inr ⟨by simp [Instr.wf, h], by simp [exec, execBcdenc, h]⟩))
  | bcddec raw => exact .inr (.inr (.inl ⟨rfl, _, rfl⟩))
  | addrenc reg rd => exact .inr (.inr (.inl ⟨rfl, _, rfl⟩))
  | brev x => exact .inr (.inr (.inl ⟨rfl, _, rfl⟩))

end Sys2Proof.Machine
end

