-- ==== Sys2Proof/Laws/Script.lean ====
section
/-! SUPPORT. Facts about bytes and scripts that proofs cite (40_bus_engine.md R146 to R156, R240). -/

namespace Sys2Proof.Machine

/-- Both implementations of the bit order emit bit `k` of the byte in cell `k` (R241). -/
theorem emittedBit_eq (order : BitOrder) (x : Byte) (k : Fin 8) : emittedBit order x k = bitOf x k := by
  cases order with
  | direct => rfl
  | preReversed => revert k x; decide +kernel

/-- The eight cells of a written byte, with the byte's own bits (R149). -/
theorem wbyte_eq (order : BitOrder) (x : Byte) : wbyte order x = bitPositions.flatMap fun k => wbit (bitOf x k) := by
  simp only [wbyte, emittedBit_eq]

@[simp] theorem wbit_length (b : Bool) : (wbit b).length = 6 := rfl

@[simp] theorem wbyte_length (order : BitOrder) (x : Byte) : (wbyte order x).length = 48 := rfl

@[simp] theorem rbyte_length : rbyte.length = 40 := rfl

/-- A level after two lists of micro-ops. -/
@[simp] theorem levelAfter_append (line : Line) (a b : List MicroOp) (l : Level) :
    levelAfter line (a ++ b) l = levelAfter line b (levelAfter line a l) := by
  simp [levelAfter, List.foldl_append]

/-- A direction after two lists of micro-ops. -/
@[simp] theorem dirAfter_append (a b : List MicroOp) (d : Dir) : dirAfter (a ++ b) d = dirAfter b (dirAfter a d) := by
  simp [dirAfter, List.foldl_append]

/-- The duration of two lists of micro-ops. -/
@[simp] theorem scriptCycles_append (cfg : Config) (a b : List MicroOp) :
    scriptCycles cfg (a ++ b) = scriptCycles cfg a + scriptCycles cfg b := by
  simp [scriptCycles]

/-- The minimum duration of two lists of micro-ops. -/
@[simp] theorem minDurationNs_append (cfg : Config) (a b : List MicroOp) :
    minDurationNs cfg (a ++ b) = minDurationNs cfg a + minDurationNs cfg b := by
  simp [minDurationNs]

/-- CE is low after a whole script (R154). -/
theorem levelAfter_script_ce (s : State) (l : Level) : levelAfter .ce s.script l = .low := by
  cases hk : s.kind <;> simp only [State.script, hk, writeScript, readScript, levelAfter_append] <;> rfl

/-- SCLK is low after a whole script (R148, R150). -/
theorem levelAfter_script_sclk (s : State) (l : Level) : levelAfter .sclk s.script l = .low := by
  cases hk : s.kind <;> cases hw : s.cfg.wiring <;>
    simp only [State.script, hk, hw, writeScript, readScript, levelAfter_append] <;> rfl

theorem dirAfter_wbyte (order : BitOrder) (x : Byte) (d : Dir) : dirAfter (wbyte order x) d = d := rfl

/-- The shared data line is an output after a whole script (R147, R153). -/
theorem dirAfter_script (s : State) (d : Dir) (h : s.fix = false → d = .out) (hw : s.cfg.wiring = .shared) :
    dirAfter s.script d = .out := by
  cases hk : s.kind <;> cases hf : s.fix <;>
    simp only [State.script, hk, hw, hf, writeScript, readScript, dirAfter_append, dirAfter_wbyte] <;>
    first | rfl | (simp [h hf]; rfl)

/-- A script has a micro-op (R146). -/
theorem script_length_pos (s : State) : 0 < s.script.length := by
  cases hk : s.kind <;> simp [State.script, hk, writeScript, readScript, prologue]

/-- With `SPLIT` and no fix-up a script switches no direction (R33, R152, R153). -/
theorem setDir_not_mem_script (s : State) (hw : s.cfg.wiring = .split) (hf : s.fix = false) (way : Way) :
    .setDir way ∉ s.script := by
  cases hk : s.kind <;>
    simp [State.script, hk, hw, hf, writeScript, readScript, fixup, prologue, epilogue, turnIn, turnOut, wbyte, rbyte,
      wbit, rbit]

/-- One micro-op further in a list. -/
theorem take_succ_of_getElem? {α : Type} {l : List α} {n : Nat} {a : α} (h : l[n]? = some a) :
    l.take (n + 1) = l.take n ++ [a] := by
  rw [List.take_add_one, h]; rfl

@[simp] theorem State.currentOp_tick (s : State) : s.tick.currentOp = s.currentOp := rfl

/-- The minimum duration of a written bit cell (R166). -/
theorem minDurationNs_wbit (cfg : Config) (b : Bool) : minDurationNs cfg (wbit b) = cfg.tDsu + cfg.tCh + cfg.tCl := by
  simp [minDurationNs, wbit, opMinNs, Config.ns]; omega

end Sys2Proof.Machine
end

