-- ==== Sys2Proof/Laws/Engine.lean ====
section
/-! SUPPORT. What one cycle of the engine does to the state, in the terms of Safety.lean (40_bus_engine.md R157 to R163). -/

namespace Sys2Proof.Machine

/-! ## Fields that completing a micro-op leaves alone (R162, R163) -/

@[simp] theorem State.completeMicroOp_ce (s : State) : s.completeMicroOp.ce = s.ce := by
  unfold State.completeMicroOp; split <;> rfl
@[simp] theorem State.completeMicroOp_sclk (s : State) : s.completeMicroOp.sclk = s.sclk := by
  unfold State.completeMicroOp; split <;> rfl
@[simp] theorem State.completeMicroOp_ioDir (s : State) : s.completeMicroOp.ioDir = s.ioDir := by
  unfold State.completeMicroOp; split <;> rfl
@[simp] theorem State.completeMicroOp_ioOut (s : State) : s.completeMicroOp.ioOut = s.ioOut := by
  unfold State.completeMicroOp; split <;> rfl
@[simp] theorem State.completeMicroOp_kind (s : State) : s.completeMicroOp.kind = s.kind := by
  unfold State.completeMicroOp; split <;> rfl
@[simp] theorem State.completeMicroOp_cmd (s : State) : s.completeMicroOp.cmd = s.cmd := by
  unfold State.completeMicroOp; split <;> rfl
@[simp] theorem State.completeMicroOp_wdata (s : State) : s.completeMicroOp.wdata = s.wdata := by
  unfold State.completeMicroOp; split <;> rfl
@[simp] theorem State.completeMicroOp_fix (s : State) : s.completeMicroOp.fix = s.fix := by
  unfold State.completeMicroOp; split <;> rfl
@[simp] theorem State.completeMicroOp_waitcnt (s : State) : s.completeMicroOp.waitcnt = s.waitcnt := by
  unfold State.completeMicroOp; split <;> rfl
@[simp] theorem State.completeMicroOp_rx (s : State) : s.completeMicroOp.rx = s.rx := by
  unfold State.completeMicroOp; split <;> rfl
@[simp] theorem State.completeMicroOp_refusedMark (s : State) : s.completeMicroOp.refusedMark = s.refusedMark := by
  unfold State.completeMicroOp; split <;> rfl
@[simp] theorem State.completeMicroOp_host (s : State) : s.completeMicroOp.host = s.host := by
  unfold State.completeMicroOp; split <;> rfl
@[simp] theorem State.completeMicroOp_resets (s : State) : s.completeMicroOp.resets = s.resets := by
  unfold State.completeMicroOp; split <;> rfl
@[simp] theorem State.completeMicroOp_fails (s : State) : s.completeMicroOp.fails = s.fails := by
  unfold State.completeMicroOp; split <;> rfl
@[simp] theorem State.completeMicroOp_samples (s : State) : s.completeMicroOp.samples = s.samples := by
  unfold State.completeMicroOp; split <;> rfl
@[simp] theorem State.completeMicroOp_draws (s : State) : s.completeMicroOp.draws = s.draws := by
  unfold State.completeMicroOp; split <;> rfl
@[simp] theorem State.completeMicroOp_cfg (s : State) : s.completeMicroOp.cfg = s.cfg := by
  unfold State.completeMicroOp; split <;> rfl

/-! ## Draws -/

@[simp] theorem State.actionFails_ce (s : State) : s.actionFails.2.ce = s.ce := by rw [State.actionFails_eq]
@[simp] theorem State.actionFails_sclk (s : State) : s.actionFails.2.sclk = s.sclk := by rw [State.actionFails_eq]
@[simp] theorem State.actionFails_ioDir (s : State) : s.actionFails.2.ioDir = s.ioDir := by rw [State.actionFails_eq]
@[simp] theorem State.actionFails_ioOut (s : State) : s.actionFails.2.ioOut = s.ioOut := by rw [State.actionFails_eq]
@[simp] theorem State.actionFails_mode (s : State) : s.actionFails.2.mode = s.mode := by rw [State.actionFails_eq]
@[simp] theorem State.actionFails_kind (s : State) : s.actionFails.2.kind = s.kind := by rw [State.actionFails_eq]
@[simp] theorem State.actionFails_cmd (s : State) : s.actionFails.2.cmd = s.cmd := by rw [State.actionFails_eq]
@[simp] theorem State.actionFails_wdata (s : State) : s.actionFails.2.wdata = s.wdata := by rw [State.actionFails_eq]
@[simp] theorem State.actionFails_fix (s : State) : s.actionFails.2.fix = s.fix := by rw [State.actionFails_eq]
@[simp] theorem State.actionFails_upc (s : State) : s.actionFails.2.upc = s.upc := by rw [State.actionFails_eq]
@[simp] theorem State.actionFails_waitcnt (s : State) : s.actionFails.2.waitcnt = s.waitcnt := by rw [State.actionFails_eq]
@[simp] theorem State.actionFails_rx (s : State) : s.actionFails.2.rx = s.rx := by rw [State.actionFails_eq]
@[simp] theorem State.actionFails_result (s : State) : s.actionFails.2.result = s.result := by rw [State.actionFails_eq]
@[simp] theorem State.actionFails_status (s : State) : s.actionFails.2.status = s.status := by rw [State.actionFails_eq]
@[simp] theorem State.actionFails_ceUndef (s : State) : s.actionFails.2.ceUndef = s.ceUndef := by rw [State.actionFails_eq]
@[simp] theorem State.actionFails_rspValid (s : State) : s.actionFails.2.rspValid = s.rspValid := by rw [State.actionFails_eq]
@[simp] theorem State.actionFails_refusedMark (s : State) : s.actionFails.2.refusedMark = s.refusedMark := by rw [State.actionFails_eq]
@[simp] theorem State.actionFails_trace (s : State) : s.actionFails.2.trace = s.trace := by rw [State.actionFails_eq]
@[simp] theorem State.actionFails_host (s : State) : s.actionFails.2.host = s.host := by rw [State.actionFails_eq]
@[simp] theorem State.actionFails_resets (s : State) : s.actionFails.2.resets = s.resets := by rw [State.actionFails_eq]
@[simp] theorem State.actionFails_samples (s : State) : s.actionFails.2.samples = s.samples := by rw [State.actionFails_eq]
@[simp] theorem State.actionFails_cfg (s : State) : s.actionFails.2.cfg = s.cfg := by rw [State.actionFails_eq]
@[simp] theorem State.drawSample_ce (s : State) : s.drawSample.2.ce = s.ce := by rw [State.drawSample_eq]
@[simp] theorem State.drawSample_sclk (s : State) : s.drawSample.2.sclk = s.sclk := by rw [State.drawSample_eq]
@[simp] theorem State.drawSample_ioDir (s : State) : s.drawSample.2.ioDir = s.ioDir := by rw [State.drawSample_eq]
@[simp] theorem State.drawSample_ioOut (s : State) : s.drawSample.2.ioOut = s.ioOut := by rw [State.drawSample_eq]
@[simp] theorem State.drawSample_mode (s : State) : s.drawSample.2.mode = s.mode := by rw [State.drawSample_eq]
@[simp] theorem State.drawSample_kind (s : State) : s.drawSample.2.kind = s.kind := by rw [State.drawSample_eq]
@[simp] theorem State.drawSample_cmd (s : State) : s.drawSample.2.cmd = s.cmd := by rw [State.drawSample_eq]
@[simp] theorem State.drawSample_wdata (s : State) : s.drawSample.2.wdata = s.wdata := by rw [State.drawSample_eq]
@[simp] theorem State.drawSample_fix (s : State) : s.drawSample.2.fix = s.fix := by rw [State.drawSample_eq]
@[simp] theorem State.drawSample_upc (s : State) : s.drawSample.2.upc = s.upc := by rw [State.drawSample_eq]
@[simp] theorem State.drawSample_waitcnt (s : State) : s.drawSample.2.waitcnt = s.waitcnt := by rw [State.drawSample_eq]
@[simp] theorem State.drawSample_rx (s : State) : s.drawSample.2.rx = s.rx := by rw [State.drawSample_eq]
@[simp] theorem State.drawSample_result (s : State) : s.drawSample.2.result = s.result := by rw [State.drawSample_eq]
@[simp] theorem State.drawSample_status (s : State) : s.drawSample.2.status = s.status := by rw [State.drawSample_eq]
@[simp] theorem State.drawSample_ceUndef (s : State) : s.drawSample.2.ceUndef = s.ceUndef := by rw [State.drawSample_eq]
@[simp] theorem State.drawSample_rspValid (s : State) : s.drawSample.2.rspValid = s.rspValid := by rw [State.drawSample_eq]
@[simp] theorem State.drawSample_refusedMark (s : State) : s.drawSample.2.refusedMark = s.refusedMark := by rw [State.drawSample_eq]
@[simp] theorem State.drawSample_trace (s : State) : s.drawSample.2.trace = s.trace := by rw [State.drawSample_eq]
@[simp] theorem State.drawSample_host (s : State) : s.drawSample.2.host = s.host := by rw [State.drawSample_eq]
@[simp] theorem State.drawSample_resets (s : State) : s.drawSample.2.resets = s.resets := by rw [State.drawSample_eq]
@[simp] theorem State.drawSample_fails (s : State) : s.drawSample.2.fails = s.fails := by rw [State.drawSample_eq]
@[simp] theorem State.drawSample_cfg (s : State) : s.drawSample.2.cfg = s.cfg := by rw [State.drawSample_eq]

/-- Completing a micro-op of the running script, after the event `ev` (R162, R163). -/
theorem OpCompleted.of_completeMicroOp {s u : State} {ev : Event} (hk : u.kind = s.kind) (hc : u.cmd = s.cmd)
    (hw : u.wdata = s.wdata) (hf : u.fix = s.fix) (hg : u.cfg = s.cfg) (hh : u.host = s.host)
    (hm : u.refusedMark = s.refusedMark) (hmode : u.mode = s.mode) (hu : u.upc = s.upc) (hs : SameHostSide s u)
    (ht : u.trace = s.trace ++ [ev]) : OpCompleted s u.completeMicroOp ev := by
  have hscript : u.script = s.script := State.script_congr hk hc hw hf hg
  refine ⟨⟨by simp [hk], by simp [hc], by simp [hw], by simp [hf]⟩, by simp [hg], by simp [hh], by simp [hm], ?_, ?_⟩
  · intro hne
    have : u.completeMicroOp = { u with upc := u.upc + 1 } := by
      rcases u.completeMicroOp_cases with ⟨h, _⟩ | ⟨_, h⟩
      · exact absurd (by rw [← hu, ← hscript]; exact h) hne
      · exact h
    rw [this]
    exact ⟨hmode, by simp [hu], ⟨hs.result, hs.status, hs.ceUndef, hs.rspValid⟩, ht⟩
  · intro heq
    have : u.completeMicroOp = u.complete := by
      rcases u.completeMicroOp_cases with ⟨_, h⟩ | ⟨h, _⟩
      · exact h
      · exact absurd (by rw [hu, hscript]; exact heq) h
    rw [this]
    refine ⟨rfl, rfl, rfl, ?_, rfl, rfl, ?_⟩
    · simp only [State.complete_result, State.completionData, hk, State.complete_rx]
      cases s.kind <;> rfl
    · simp [ht]

/-- A failing action aborts the transaction (R157 to R159, R305). -/
theorem execMicroOp_aborts {s : State} {op : MicroOp} {kind : ErrKind} (hk : op.errKind? = some kind)
    (hb : s.actionFails.1 = true) : AbortedAt s (execMicroOp op s) op kind := by
  have key : ∀ (k : ErrKind) (f : Failed),
      execMicroOp op s = s.actionFails.2.abort op k f → k = kind →
      (f = .line .sclk ↔ op.drives .sclk = true) → (f = .line .data ↔ op.drives .data = true) →
      (f = .dir ↔ op.switches = true) → AbortedAt s (execMicroOp op s) op kind := by
    intro k f he hkk h1 h2 h3
    subst hkk
    rw [he, State.abort_eq]
    refine { trace := by simp, ce := rfl, ceUndef := rfl, sclk := ?_, ioOut := ?_, ioDir := ?_, upc := rfl, waitcnt := rfl, mode := rfl, status := rfl, result := rfl, rspValid := rfl, latches := ⟨?_, ?_, ?_, ?_⟩, rx := ?_, refusedMark := ?_, host := ?_, samples := ?_, cfg := ?_ }
    all_goals simp [h1, h2, h3]
  cases op with
  | wait t => simp [MicroOp.errKind?] at hk
  | sample i =>
    exact key .read .nothing (by simp only [execMicroOp, execSample, hb]; rfl) (by simpa [MicroOp.errKind?] using hk)
      (by simp [MicroOp.drives]) (by simp [MicroOp.drives]) (by simp [MicroOp.switches])
  | setDir way =>
    exact key way.err .dir (by simp only [execMicroOp, execSetDir, hb]; rfl)
      (by cases way <;> simpa [MicroOp.errKind?, Way.err] using hk)
      (by simp [MicroOp.drives]) (by simp [MicroOp.drives]) (by simp [MicroOp.switches])
  | drive line high =>
    exact key line.err (.line line) (by simp only [execMicroOp, execDrive, hb]; rfl)
      (by cases line <;> simpa [MicroOp.errKind?, Line.err] using hk)
      (by simp [MicroOp.drives]) (by simp [MicroOp.drives]) (by simp [MicroOp.switches])

/-- A `Drive` that does not fail (R157). -/
theorem execDrive_completes {s : State} (line : Line) (high : Bool) (hb : s.actionFails.1 = false) :
    execDrive line high s
      = ((s.actionFails.2.setLine line (Level.ofBit high)).log (.drive line high)).completeMicroOp := by
  simp [execDrive, hb]

/-- A `SetDir` that does not fail (R158). -/
theorem execSetDir_completes {s : State} (way : Way) (hb : s.actionFails.1 = false) :
    execSetDir way s = ((s.actionFails.2.switchDir way).log (.setDir way)).completeMicroOp := by
  simp [execSetDir, hb]

/-- A `Sample` that does not fail (R159). -/
theorem execSample_completes {s : State} (i : Fin 8) (hb : s.actionFails.1 = false) :
    execSample i s =
      ({ s.actionFails.2.drawSample.2 with
          rx := capture s.cfg.bitOrder s.rx i s.actionFails.2.drawSample.1 }.log
        (.sample i s.actionFails.2.drawSample.1)).completeMicroOp := by
  simp [execSample, hb]

/-- What a micro-op's cycle that completes it does to the lines, the counter and the inputs (R157 to R161). -/
structure OpEffect (s t : State) (op : MicroOp) : Prop where
  ce      : t.ce = levelAfter .ce [op] s.ce
  sclk    : t.sclk = levelAfter .sclk [op] s.sclk
  ioOut   : t.ioOut = levelAfter .data [op] s.ioOut
  ioDir   : t.ioDir = dirAfter [op] s.ioDir
  waitcnt : t.waitcnt = if op.isAction then s.waitcnt else 0
  rx      : (∀ i, op ≠ .sample i) → t.rx = s.rx
  resets  : t.resets = s.resets

/-- One cycle of an action that does not fail completes it (R157 to R159). -/
theorem execMicroOp_action_completes {s : State} {op : MicroOp} (ha : op.isAction = true)
    (hb : s.actionFails.1 = false) :
    OpEffect s (execMicroOp op s) op ∧
      ∃ ev, OpCompleted s (execMicroOp op s) ev ∧
        (∀ line high, op = .drive line high → ev = .drive line high) ∧ (∀ way, op = .setDir way → ev = .setDir way) ∧
        (∀ i, op = .sample i → ev = .sample i s.actionFails.2.drawSample.1 ∧
          (execMicroOp op s).rx = capture s.cfg.bitOrder s.rx i s.actionFails.2.drawSample.1) := by
  cases op with
  | wait t => simp [MicroOp.isAction] at ha
  | drive line high =>
    refine ⟨?_, .drive line high, ?_, by simp, by simp, by simp⟩
    · simp only [execMicroOp, execDrive_completes line high hb]
      cases line <;> exact ⟨by simp [State.setLine, levelAfter], by simp [State.setLine, levelAfter], by simp [State.setLine, levelAfter], by simp [State.setLine, dirAfter], by simp [State.setLine, MicroOp.isAction], by simp [State.setLine], by simp [State.setLine]⟩
    · simp only [execMicroOp, execDrive_completes line high hb]
      cases line <;> exact .of_completeMicroOp (by simp [State.setLine]) (by simp [State.setLine]) (by simp [State.setLine]) (by simp [State.setLine]) (by simp [State.setLine]) (by simp [State.setLine]) (by simp [State.setLine]) (by simp [State.setLine]) (by simp [State.setLine]) ⟨by simp [State.setLine], by simp [State.setLine], by simp [State.setLine], by simp [State.setLine]⟩ (by simp [State.setLine])
  | setDir way =>
    refine ⟨?_, .setDir way, ?_, by simp, by simp, by simp⟩
    · simp only [execMicroOp, execSetDir_completes way hb]
      cases way <;> exact ⟨by simp [State.switchDir, levelAfter], by simp [State.switchDir, levelAfter], by simp [State.switchDir, levelAfter], by simp [State.switchDir, dirAfter, Way.dir], by simp [State.switchDir, MicroOp.isAction], by simp [State.switchDir], by simp [State.switchDir]⟩
    · simp only [execMicroOp, execSetDir_completes way hb]
      cases way <;> exact .of_completeMicroOp (by simp [State.switchDir]) (by simp [State.switchDir]) (by simp [State.switchDir]) (by simp [State.switchDir]) (by simp [State.switchDir]) (by simp [State.switchDir]) (by simp [State.switchDir]) (by simp [State.switchDir]) (by simp [State.switchDir]) ⟨by simp [State.switchDir], by simp [State.switchDir], by simp [State.switchDir], by simp [State.switchDir]⟩ (by simp [State.switchDir])
  | sample i =>
    refine ⟨?_, .sample i s.actionFails.2.drawSample.1, ?_, by simp, by simp, ?_⟩
    · simp only [execMicroOp, execSample_completes i hb]
      exact ⟨by simp [levelAfter], by simp [levelAfter], by simp [levelAfter], by simp [dirAfter], by simp [MicroOp.isAction], by simp, by simp⟩
    · simp only [execMicroOp, execSample_completes i hb]
      exact .of_completeMicroOp (by simp) (by simp) (by simp) (by simp) (by simp) (by simp) (by simp) (by simp) (by simp) ⟨by simp, by simp, by simp, by simp⟩ (by simp)
    · intro j hj
      cases hj
      exact ⟨rfl, by simp only [execMicroOp, execSample_completes i hb]; simp⟩

/-- The cycle that completes a `Wait` (R161). -/
theorem finishWait_completes (t : WaitParam) (s : State) :
    OpEffect s (finishWait t s) (.wait t) ∧ OpCompleted s (finishWait t s) (.wait t) := by
  constructor
  · exact ⟨by simp [finishWait, levelAfter], by simp [finishWait, levelAfter], by simp [finishWait, levelAfter],
      by simp [finishWait, dirAfter], by simp [finishWait, MicroOp.isAction], by simp [finishWait], by simp [finishWait]⟩
  · exact .of_completeMicroOp rfl rfl rfl rfl rfl rfl rfl rfl rfl ⟨rfl, rfl, rfl, rfl⟩ rfl

/-- What one cycle of a micro-op can do: abort at it, complete it, or count a wait down (R157 to R161). -/
theorem execMicroOp_cases (op : MicroOp) (s : State) :
    (∃ kind, op.errKind? = some kind ∧ s.actionFails.1 = true ∧ AbortedAt s (execMicroOp op s) op kind) ∨
    (OpEffect s (execMicroOp op s) op ∧ ∃ ev, OpCompleted s (execMicroOp op s) ev ∧ acceptedIn [ev] = [] ∧
      responsesIn [ev] = []) ∨
    (∃ t, op = .wait t ∧ 1 < waitCount t s ∧ execMicroOp op s = { s with waitcnt := waitCount t s - 1 }) := by
  by_cases ha : op.isAction = true
  · cases hb : s.actionFails.1
    · obtain ⟨he, ev, hc, hd, hw, hs⟩ := execMicroOp_action_completes ha hb
      refine .inr (.inl ⟨he, ev, hc, ?_⟩)
      cases op with
      | wait t => simp [MicroOp.isAction] at ha
      | drive line high => rw [hd line high rfl]; exact ⟨rfl, rfl⟩
      | setDir way => rw [hw way rfl]; exact ⟨rfl, rfl⟩
      | sample i => rw [(hs i rfl).1]; exact ⟨rfl, rfl⟩
    · obtain ⟨kind, hk⟩ : ∃ kind, op.errKind? = some kind := by
        cases op with
        | wait t => simp [MicroOp.isAction] at ha
        | drive l h => cases l <;> exact ⟨_, rfl⟩
        | setDir w => cases w <;> exact ⟨_, rfl⟩
        | sample i => exact ⟨_, rfl⟩
      exact .inl ⟨kind, hk, rfl, execMicroOp_aborts hk hb⟩
  · cases op with
    | wait t =>
      rcases execWait_cases t s with ⟨-, h⟩ | ⟨h1, h⟩
      · exact .inr (.inl (by simp only [execMicroOp, h]; exact ⟨(finishWait_completes t s).1, _,
          (finishWait_completes t s).2, rfl, rfl⟩))
      · exact .inr (.inr ⟨t, rfl, h1, h⟩)
    | _ => simp [MicroOp.isAction] at ha

end Sys2Proof.Machine
end

