-- ==== Sys2Proof/Laws/HostSeq.lean ====
section
/-! SUPPORT. What a step appends to the trace in accepts and responses, and what a host that waits for a response gets
(10_state.md R41 to R44, 45_host_sequences.md R270). -/

namespace Sys2Proof.Machine

/-! ## Accepts and responses in a list of events -/

@[simp] theorem acceptedIn_append (es fs : List Event) : acceptedIn (es ++ fs) = acceptedIn es ++ acceptedIn fs := by
  induction es with
  | nil => rfl
  | cons e es ih => cases e <;> simp [acceptedIn, ih]

@[simp] theorem responsesIn_append (es fs : List Event) : responsesIn (es ++ fs) = responsesIn es ++ responsesIn fs := by
  induction es with
  | nil => rfl
  | cons e es ih => cases e <;> simp [responsesIn, ih]

/-! ## What a step appends -/

/-- The events `es` of a step end a request in `t`: with its response, and nothing accepted or running. -/
structure Responds (t : State) (es : List Event) : Prop where
  mode      : t.mode = .idle
  rspValid  : t.rspValid = true
  responses : responsesIn es = [(t.status, t.result)]

/-- The events `es` of a step answer nothing, and a request still runs in `t`. -/
structure Runs (t : State) (es : List Event) : Prop where
  mode      : t.mode = .busy
  responses : responsesIn es = []

/-- A step that accepts the word shown appends it, and the request runs or is answered at once (R40, R44). -/
theorem step_accepts {s t : State} {w : ReqWord} (ha : s.accepts = true) (hw : s.reqShown = some w)
    (hd : ∀ i, decode w = some i → encode i = w) (h : step s = .next t) :
    ∃ es, t.trace = s.trace ++ es ∧ acceptedIn es = [w] ∧ (Runs t es ∨ Responds t es) := by
  simp only [State.accepts, State.reqReady, State.reqValid, Bool.and_eq_true, decide_eq_true_eq, Bool.not_eq_true'] at ha
  rcases step_cases s with ⟨hr, _⟩ | ⟨_, _, hn, _⟩ | ⟨_, _, w', hw', hc⟩ | ⟨_, hm, _⟩ | ⟨_, hm, _⟩ | ⟨_, hm, _⟩
  · exact absurd (ha.2.symm.trans hr) (by decide)
  · exact absurd (hn.symm.trans hw) (by simp)
  · obtain rfl : w' = w := Option.some.inj (hw'.symm.trans hw)
    rcases hc with ⟨i, hi, he⟩ | ⟨_, he⟩
    · obtain rfl := hd i hi
      rw [he] at h
      rcases exec_cases i s.tick.takeRequest.2 with ⟨reg, _, hx⟩ | ⟨reg, d, _, hx⟩ | ⟨_, r, hx⟩ | ⟨_, hx⟩
      all_goals
        rw [hx] at h
        cases h
      · exact ⟨[.accept (encode i)], rfl, rfl, .inl ⟨rfl, rfl⟩⟩
      · exact ⟨[.accept (encode i)], rfl, rfl, .inl ⟨rfl, rfl⟩⟩
      · exact ⟨[.accept (encode i), .respond .ok r], by simp [State.answer, State.log, State.respond, State.takeRequest, State.tick],
          rfl, .inr ⟨rfl, rfl, rfl⟩⟩
      · exact ⟨[.accept (encode i), .respond .refused 0x00],
          by simp [State.refuse, State.log, State.respond, State.takeRequest, State.tick], rfl, .inr ⟨rfl, rfl, rfl⟩⟩
    · rw [he] at h
      cases h
      exact ⟨[.accept w', .respond .refused 0x00],
        by simp [State.refuse, State.log, State.respond, State.takeRequest, State.tick], rfl, .inr ⟨rfl, rfl, rfl⟩⟩
  all_goals exact absurd (ha.1.1.symm.trans hm) (by decide)

/-- A step outside BUSY that accepts nothing answers nothing, starts nothing, and leaves a word shown where it is (R43). -/
theorem step_holds {s t : State} (hm : s.mode ≠ .busy) (ha : s.accepts = false) (h : step s = .next t) :
    ∃ es, t.trace = s.trace ++ es ∧ acceptedIn es = [] ∧ responsesIn es = [] ∧ t.mode ≠ .busy ∧
      (s.reqShown.isSome → t.host = s.host) := by
  rcases step_cases s with ⟨_, he⟩ | ⟨hr, hi, hn, he⟩ | ⟨hr, hi, w, hw, _⟩ | ⟨_, hb, _⟩ | ⟨_, hb, _⟩ | ⟨_, hi, he⟩
  · rw [he] at h
    cases h
    exact ⟨[.reset], rfl, rfl, rfl, by simp [State.applyReset, State.resetOf], fun _ => rfl⟩
  · rw [he] at h
    cases h
    exact ⟨[], by simp [State.takeRequest, State.tick], rfl, rfl, hm, by simp [hn]⟩
  · simp [State.accepts, State.reqReady, State.reqValid, hr, hi, hw] at ha
  · exact absurd hb hm
  · exact absurd hb hm
  · rw [he] at h
    cases h
    refine ⟨[], ?_, rfl, rfl, ?_, fun _ => ?_⟩ <;> unfold recoveryCycle <;> split <;>
      simp_all [State.tick]

/-- A step in BUSY goes on, ends the request with its response, or is a reset, which ends it without one (R44, R342). -/
theorem step_busy {s t : State} (hm : s.mode = .busy) (h : step s = .next t) :
    ∃ es, t.trace = s.trace ++ es ∧ acceptedIn es = [] ∧
      (Runs t es ∨ Responds t es ∨ (t.mode = .rstWait ∧ t.rspValid = false)) := by
  rcases step_cases s with ⟨_, he⟩ | ⟨_, hi, _⟩ | ⟨_, hi, _⟩ | ⟨_, _, op, _, he⟩ | ⟨_, _, _, he⟩ | ⟨_, hi, _⟩
  · rw [he] at h
    cases h
    exact ⟨[.reset], rfl, rfl, .inr (.inr ⟨rfl, rfl⟩)⟩
  · exact absurd (hm.symm.trans hi) (by decide)
  · exact absurd (hm.symm.trans hi) (by decide)
  · rw [he] at h
    cases h
    rcases execMicroOp_cases op s.tick with ⟨kind, _, _, hab⟩ | ⟨_, ev, hc, hacc, hrsp⟩ | ⟨_, _, _, hw⟩
    · exact ⟨[.fail op kind, .respond (.error kind) 0x00], hab.trace, rfl,
        .inr (.inl ⟨hab.mode, hab.rspValid, by rw [hab.status, hab.result]; rfl⟩)⟩
    · by_cases hl : s.tick.upc + 1 = s.tick.script.length
      · obtain ⟨hmode, _, hst, _, hv, _, ht⟩ := hc.ends hl
        refine ⟨[ev] ++ [.respond .ok (execMicroOp op s.tick).result], ht, ?_,
          .inr (.inl ⟨hmode, hv, by rw [responsesIn_append, hrsp, hst]; rfl⟩)⟩
        rw [acceptedIn_append, hacc]
        rfl
      · obtain ⟨hmode, _, _, ht⟩ := hc.goesOn hl
        exact ⟨[ev], ht, hacc, .inl ⟨hmode.trans hm, hrsp⟩⟩
    · rw [hw]
      exact ⟨[], by simp [State.tick], rfl, .inl ⟨hm, rfl⟩⟩
  · rw [he] at h
    cases h
  · exact absurd (hm.symm.trans hi) (by decide)

/-! ## Waiting for a response -/

/-- Where the wait after the acceptance ends with a response, it is that of the request that was running (R41, R270). -/
theorem awaitResponse_running : ∀ (fuel : Nat) {s t : State}, s.mode = .busy → awaitResponse fuel true s = .next (true, t) →
    ∃ es, t.trace = s.trace ++ es ∧ acceptedIn es = [] ∧ responsesIn es = [(t.status, t.result)] ∧ t.mode ≠ .busy
  | 0, s, t, hm, h => by simp [awaitResponse, hm] at h
  | fuel + 1, s, t, hm, h => by
    rw [awaitResponse, if_neg (by simp [hm])] at h
    cases hs : step s with
    | fault r => simp [hs] at h
    | refused r => simp [hs] at h
    | next u =>
      simp only [hs, Bool.true_or] at h
      obtain ⟨es, ht, hacc, hu⟩ := step_busy hm hs
      have stops (hne : u.mode ≠ .busy) : u.rspValid = true ∧ u = t := by
        cases fuel <;> simpa [awaitResponse, hne] using h
      rcases hu with hu | hu | ⟨hmode, hv⟩
      · obtain ⟨es', ht', hacc', hr', hm'⟩ := awaitResponse_running fuel hu.mode h
        exact ⟨es ++ es', by rw [ht', ht, List.append_assoc], by simp [hacc, hacc'], by simp [hu.responses, hr'], hm'⟩
      · obtain ⟨_, rfl⟩ := stops (by simp [hu.mode])
        exact ⟨es, ht, hacc, hu.responses, by simp [hu.mode]⟩
      · exact absurd ((stops (by simp [hmode])).1.symm.trans hv) (by decide)

/-- Where the wait for the word shown ends with a response, that word alone was accepted and the response is its own. -/
theorem awaitResponse_shown {w : ReqWord} (hd : ∀ i, decode w = some i → encode i = w) :
    ∀ (fuel : Nat) {s t : State}, s.mode ≠ .busy → s.reqShown = some w → awaitResponse fuel false s = .next (true, t) →
    ∃ es, t.trace = s.trace ++ es ∧ acceptedIn es = [w] ∧ responsesIn es = [(t.status, t.result)] ∧ t.mode ≠ .busy
  | 0, s, t, _, _, h => by simp [awaitResponse] at h
  | fuel + 1, s, t, hm, hw, h => by
    rw [awaitResponse, if_neg (by simp)] at h
    cases hs : step s with
    | fault r => simp [hs] at h
    | refused r => simp [hs] at h
    | next u =>
      simp only [hs, Bool.false_or] at h
      cases ha : s.accepts with
      | false =>
        obtain ⟨es, ht, hacc, hr, hmu, hh⟩ := step_holds hm ha hs
        have hwu : u.reqShown = some w := by simpa [State.reqShown, hh (by simp [hw])] using hw
        obtain ⟨es', ht', hacc', hr', hm'⟩ := awaitResponse_shown hd fuel hmu hwu (ha ▸ h)
        exact ⟨es ++ es', by rw [ht', ht, List.append_assoc], by simp [hacc, hacc'], by simp [hr, hr'], hm'⟩
      | true =>
        rw [ha] at h
        obtain ⟨es, ht, hacc, hu⟩ := step_accepts ha hw hd hs
        rcases hu with hu | hu
        · obtain ⟨es', ht', hacc', hr', hm'⟩ := awaitResponse_running fuel hu.mode h
          exact ⟨es ++ es', by rw [ht', ht, List.append_assoc], by simp [hacc, hacc'], by simp [hu.responses, hr'], hm'⟩
        · obtain rfl : u = t := by
            cases fuel <;> simpa [awaitResponse, hu.mode, hu.rspValid] using h
          exact ⟨es, ht, hacc, hu.responses, by simp [hu.mode]⟩

/-- A request the host waited out: its word alone was accepted, and the response it reads is its own (R41, R270). -/
theorem transact_answered {fuel : Nat} {w : ReqWord} {s t : State} (hd : ∀ i, decode w = some i → encode i = w)
    (hm : s.mode ≠ .busy) (h : transact fuel w s = .next (true, t)) :
    ∃ es, t.trace = s.trace ++ es ∧ acceptedIn es = [w] ∧ responsesIn es = [(t.status, t.result)] ∧ t.mode ≠ .busy :=
  awaitResponse_shown hd fuel (s := { s with host := some w :: s.host }) hm rfl h

end Sys2Proof.Machine
end

