-- ==== Sys2Proof/Laws/PerInstr.lean ====
section
/-! SUPPORT. A fact about every instruction as it is written down: its word lies in its row of spec/opcode_table.json. -/

namespace Sys2Proof.Laws.TableRow

/-- The `mask` and `match` of the instruction's row of spec/opcode_table.json. -/
def row : Instr → ReqWord × ReqWord
  | .wrSec _     => (0xFF00, 0x8000)
  | .rdSec       => (0xFFFF, 0x8100)
  | .wrMin _     => (0xFF00, 0x8200)
  | .rdMin       => (0xFFFF, 0x8300)
  | .wrHour _    => (0xFF00, 0x8400)
  | .rdHour      => (0xFFFF, 0x8500)
  | .wrDate _    => (0xFF00, 0x8600)
  | .rdDate      => (0xFFFF, 0x8700)
  | .wrMonth _   => (0xFF00, 0x8800)
  | .rdMonth     => (0xFFFF, 0x8900)
  | .wrDay _     => (0xFF00, 0x8A00)
  | .rdDay       => (0xFFFF, 0x8B00)
  | .wrYear _    => (0xFF00, 0x8C00)
  | .rdYear      => (0xFFFF, 0x8D00)
  | .bcdenc _    => (0xFF00, 0x0100)
  | .bcddec _    => (0xFF00, 0x0200)
  | .addrenc _ _ => (0xFFF0, 0x0300)
  | .brev _      => (0xFF00, 0x0400)

/-- The instruction's word, under its row's mask, is its row's match. -/
abbrev Statement (i : Instr) : Prop := encode i &&& (row i).1 = (row i).2

theorem wrSec (d : Byte) : Statement (.wrSec d) := reqWord_and_op _ _
theorem rdSec : Statement .rdSec := by decide
theorem wrMin (d : Byte) : Statement (.wrMin d) := reqWord_and_op _ _
theorem rdMin : Statement .rdMin := by decide
theorem wrHour (d : Byte) : Statement (.wrHour d) := reqWord_and_op _ _
theorem rdHour : Statement .rdHour := by decide
theorem wrDate (d : Byte) : Statement (.wrDate d) := reqWord_and_op _ _
theorem rdDate : Statement .rdDate := by decide
theorem wrMonth (d : Byte) : Statement (.wrMonth d) := reqWord_and_op _ _
theorem rdMonth : Statement .rdMonth := by decide
theorem wrDay (d : Byte) : Statement (.wrDay d) := reqWord_and_op _ _
theorem rdDay : Statement .rdDay := by decide
theorem wrYear (d : Byte) : Statement (.wrYear d) := reqWord_and_op _ _
theorem rdYear : Statement .rdYear := by decide
theorem bcdenc (v : Byte) : Statement (.bcdenc v) := reqWord_and_op _ _
theorem bcddec (raw : Byte) : Statement (.bcddec raw) := reqWord_and_op _ _
theorem addrenc (reg : ClockReg) (rd : Bool) : Statement (.addrenc reg rd) := by
  cases reg <;> cases rd <;> decide
theorem brev (x : Byte) : Statement (.brev x) := reqWord_and_op _ _

end Sys2Proof.Laws.TableRow
end

