-- ==== Sys2Proof/Tests/Slice0.lean ====
section
/-! SUPPORT. The model's own tests: expected values from the spec's tables and examples (30_encoding.md R101, 41_transactions.md,
42_framer.md, 43_bcd.md, 95_test_vectors.md), the well-formedness smoke tests, and a witness for the hypotheses of each
statement. -/

namespace Sys2Proof.Tests

open Sys2Proof.Machine

/-! ## Helpers -/

/-- A configuration at 24 MHz with the defaults (R351). -/
def config (w : Wiring) : Config := Config.withDefaults w 24000000 8

/-- S0 of 95_test_vectors.md section 0. -/
def s0 (w : Wiring) : State := { State.resetOf (config w) with mode := .idle, waitcnt := 0 }

/-- S0 with a word shown, and answers of the environment placed. -/
def showing (w : ReqWord) : State :=
  { s0 .shared with host := [some w], fails := List.replicate 60 false, samples := List.replicate 8 true }

/-- A running `RD_SEC` at position `upc` of its script. -/
def reading (w : Wiring) (upc : Nat) (bad : Bool) : State :=
  { s0 w with mode := .busy, kind := .read, cmd := 0x81, upc := upc, fails := [bad], samples := [true], sclk := .high }

/-- A running `WR_SEC 0x59` at position `upc` of its script. -/
def writing (upc : Nat) (bad : Bool) : State :=
  { s0 .shared with mode := .busy, kind := .write, cmd := 0x80, wdata := 0x59, upc := upc, fails := [bad] }

/-- One step, and a check of the next state. -/
def after (s : State) (check : State → Bool) : Bool :=
  match step s with
  | .next t => check t
  | _       => false

/-! ## Well-formedness -/

theorem test_bcdenc_100_is_ill_formed : (Instr.bcdenc 100).wf = false := by decide
theorem test_bcdenc_99_is_well_formed : (Instr.bcdenc 99).wf = true := by decide
theorem test_zero_clock_is_refused : (Config.withDefaults .shared 0 8).clockWf = false := by decide
theorem test_narrow_wait_counter_is_refused : (Config.withDefaults .shared 24000000 6).waitWf = false := by decide
theorem test_default_config_is_admitted : (config .split).wf = true := by decide

/-! ## Decoding: words written out from R101 and R102 -/

theorem test_decode_writes :
    decode 0b1000000001011001 = some (.wrSec 0x59) ∧ decode 0b1000001000110000 = some (.wrMin 0x30) ∧
    decode 0b1000010000010011 = some (.wrHour 0x13) ∧ decode 0b1000011000110001 = some (.wrDate 0x31) ∧
    decode 0b1000100000010010 = some (.wrMonth 0x12) ∧ decode 0b1000101000000111 = some (.wrDay 0x07) ∧
    decode 0b1000110010011001 = some (.wrYear 0x99) := by decide

theorem test_decode_reads :
    decode 0b1000000100000000 = some .rdSec ∧ decode 0b1000001100000000 = some .rdMin ∧
    decode 0b1000010100000000 = some .rdHour ∧ decode 0b1000011100000000 = some .rdDate ∧
    decode 0b1000100100000000 = some .rdMonth ∧ decode 0b1000101100000000 = some .rdDay ∧
    decode 0b1000110100000000 = some .rdYear := by decide

theorem test_decode_pure :
    decode 0b0000000101100011 = some (.bcdenc 99) ∧ decode 0b0000001010100101 = some (.bcddec 0xA5) ∧
    decode 0b0000001100001101 = some (.addrenc .year true) ∧ decode 0b0000001100000010 = some (.addrenc .min false) ∧
    decode 0b0000010010000000 = some (.brev 0x80) := by decide

/-- V-DEC of 95_test_vectors.md: the refused words at the edges of R120. -/
theorem test_decode_refuses :
    decode 0x0000 = none ∧ decode 0x0164 = none ∧ decode 0x01FF = none ∧ decode 0x030E = none ∧ decode 0x0310 = none ∧
    decode 0x0500 = none ∧ decode 0x7FFF = none ∧ decode 0x8101 = none ∧ decode 0x8D01 = none ∧ decode 0x8E00 = none ∧
    decode 0xFFFF = none := by decide

theorem test_table_word_16 : decodeTableWord 16 0x8D00 = some .rdYear := by decide
theorem test_table_word_too_long : decodeTableWord 32 0x18D00 = none := by decide

/-! ## One step of each request from S0 -/

theorem test_step_write :
    after (showing 0x8059) (fun t => t.mode == .busy && t.kind == .write && t.cmd == 0x80 && t.wdata == 0x59 && !t.rspValid
      && t.trace == [.reset, .accept 0x8059]) = true := by decide
theorem test_step_read :
    after (showing 0x8500) (fun t => t.mode == .busy && t.kind == .read && t.cmd == 0x85 && t.wdata == 0 && !t.fix
      && t.host == []) = true := by decide
/-- P7 of 95_test_vectors.md. -/
theorem test_step_addrenc : after (showing 0x0305) (fun t => t.result == 0x85 && t.status == .ok && t.rspValid) = true := by
  decide
theorem test_step_brev : after (showing 0x040F) (fun t => t.result == 0xF0 && t.status == .ok) = true := by decide
theorem test_step_bcdenc : after (showing 0x013B) (fun t => t.result == 0x59 && t.status == .ok) = true := by decide
/-- V-BCD-R: 23, not the misreading's 35 (R254). -/
theorem test_step_bcddec : after (showing 0x0223) (fun t => t.result == 23 && t.status == .ok) = true := by decide
theorem test_step_bcddec_nibbles : after (showing 0x02FF) (fun t => t.result == 165) = true := by decide
/-- V-DEC-5: `BCDENC 100` is refused, with no value computed. -/
theorem test_step_refuses :
    after (showing 0x0164) (fun t => t.result == 0 && t.status == .refused && t.refusedMark && t.statusReg == 0x05
      && t.trace == [.reset, .accept 0x0164, .respond .refused 0]) = true := by decide
/-- The fix-up is decided at acceptance (R147). -/
theorem test_step_fixup :
    after { showing 0x8230 with ioDir := .unk } (fun t => t.fix && t.currentOp == some (.setDir .output)) = true := by decide

/-! ## Every table row runs as the first request after reset -/

theorem test_reset_fetch_write :
    after (State.reset.withFetchWord 16 0x8059) (fun t => t.mode == .busy && t.cmd == 0x80 && t.wdata == 0x59) = true := by
  decide
theorem test_reset_fetch_pure :
    after (State.reset.withFetchWord 16 0x0300) (fun t => t.result == 0x80 && t.status == .ok) = true := by decide

/-! ## One cycle of each micro-op (95_test_vectors.md sections 2.7, 2.8, 2.10) -/

/-- V-ERR-2: the CE assert fails. -/
theorem test_ce_failure :
    after (writing 1 true) (fun t => t.status == .error .chipSelect && t.ce == .x && t.sclk == .low && t.ceUndef
      && t.mode == .idle && t.statusReg == 0x09
      && t.trace == [.reset, .fail (.drive .ce true) .chipSelect, .respond (.error .chipSelect) 0]) = true := by decide
/-- V-ERR-6: the first data bit fails. -/
theorem test_data_failure :
    after (writing 51 true) (fun t => t.status == .error .write && t.ioOut == .x && t.ioDir == .out) = true := by decide
/-- V-ERR-11: the turnaround to input fails. -/
theorem test_turnaround_failure :
    after (reading .shared 51 true) (fun t => t.status == .error .read && t.ioDir == .unk) = true := by decide
/-- V-ERR-13: the first sample fails, and SCLK stays high. -/
theorem test_sample_failure :
    after (reading .shared 55 true) (fun t => t.status == .error .read && t.sclk == .high && t.ce == .x
      && t.result == 0) = true := by decide
theorem test_sample_0 :
    after (reading .shared 55 false) (fun t => t.rx == 0x01 && t.upc == 56 && t.samples == []) = true := by decide
/-- With SPLIT, `Sample(7)` stands at position 88. -/
theorem test_sample_7_split : after (reading .split 88 false) (fun t => t.rx == 0x80) = true := by decide
theorem test_turn_out : after (reading .shared 93 false) (fun t => t.ioDir == .out && t.ioOut == .x) = true := by decide
/-- The settle wait takes 96 cycles at 24 MHz: 95 are left after its first. -/
theorem test_wait_loads : after (writing 2 false) (fun t => t.waitcnt == 95 && t.upc == 2) = true := by decide
theorem test_wait_ends :
    after { writing 2 false with waitcnt := 1 } (fun t => t.waitcnt == 0 && t.upc == 3) = true := by decide
/-- The last cycle of the recovery wait ends the request (R163). -/
theorem test_completion :
    after { writing 101 false with waitcnt := 1 } (fun t => t.mode == .idle && t.status == .ok && t.upc == 0
      && t.rspValid && t.trace == [.reset, .wait .ceRecover, .respond .ok 0]) = true := by decide
/-- V-RST-MID: reset in the middle of a write. -/
theorem test_reset_mid_transaction :
    after { writing 30 false with resets := [true] } (fun t => t.mode == .rstWait && t.waitcnt == 96 && !t.rspValid
      && t.trace == [.reset, .reset]) = true := by decide

/-- R351: cycles at 24 MHz and 48 MHz; V-CYC at 8 MHz. -/
theorem test_cycles :
    (WaitParam.all.map fun t => cycles (config .shared) t) = [96, 5, 24, 24, 7, 24, 8, 96] ∧
    cyclesAt 48000000 300 = 15 ∧ cyclesAt 8000000 280 = 3 ∧ cyclesAt 1000 200 = 1 ∧ cyclesAt 48000000 0 = 0 := by decide
/-- 95_test_vectors.md section 2.6. -/
theorem test_script_cycles :
    scriptCycles (config .shared) (writeScript .direct 0x80 0x59 false) = 1099 ∧
    scriptCycles (config .shared) (readScript .shared .direct 0x81 true) = 1069 ∧
    scriptCycles (config .split) (readScript .split .direct 0x81 false) = 1059 := by decide

/-! ## Text and host sequences -/

/-- `WR_SEC 0x59 ; c` (R122). -/
theorem test_text_write :
    assembleLine ['W', 'R', '_', 'S', 'E', 'C', ' ', '0', 'x', '5', '9', ' ', ';', ' ', 'c'] = some 0x8059 := by decide
/-- `BCDENC 100` is not of the syntax (R122). -/
theorem test_text_bcdenc_100 : assembleLine ['B', 'C', 'D', 'E', 'N', 'C', ' ', '1', '0', '0'] = none := by decide
/-- `.word 0x0164`, and `BREV 0b1000_0000`. -/
theorem test_text_word :
    assembleLine ['.', 'w', 'o', 'r', 'd', ' ', '0', 'x', '0', '1', '6', '4'] = some 0x0164 ∧
    assembleLine ['B', 'R', 'E', 'V', ' ', '0', 'b', '1', '0', '0', '0', '_', '0', '0', '0', '0'] = some 0x0480 := by decide

/-- The working values of D30. -/
def hours : HourParams := ⟨7, true, 5, fun pm => if pm then 12 else 0⟩
/-- E6: 0x13 is 13 o'clock, 0xA3 is 15 o'clock. -/
theorem test_get_hour :
    ((getHour hours).replay [(.ok, 0x13), (.ok, 13)]).2 = some (.value 13) ∧
    ((getHour hours).replay [(.ok, 0xA3), (.ok, 3)]) = ([0x8500, 0x0203], some (.value 15)) := by decide
/-- P2: set_seconds(30) with the clock halted. -/
theorem test_set_seconds :
    (setSeconds 30).replay [(.ok, 0x85), (.ok, 0x30), (.ok, 0)] = ([0x8100, 0x011E, 0x80B0], some .written) := by decide

/-- A host that waits: with no cycle left after the acceptance, and with a reset in the middle, no response is read (R270, R342);
a pure request is answered in its acceptance cycle (R78). -/
theorem test_host_waits :
    (match transact 1 0x8100 (s0 .shared) with | .next (got, t) => !got && t.mode == .busy | _ => false) = true ∧
    (match transact 9 0x8100 { s0 .shared with resets := [false, false, true], fails := [false] } with
      | .next (got, t) => !got && t.mode == .rstWait && t.result == 0x00 && t.status == .ok | _ => false) = true ∧
    (match transact 1 0x0223 (s0 .shared) with | .next (got, t) => got && t.result == 23 | _ => false) = true := by decide

/-! ## Witnesses: states and operands that meet the hypotheses of the statements -/

/-- S0 keeps the invariant, with any inputs. -/
theorem inv_s0 (w : Wiring) (host : List (Option ReqWord)) (fails samples : List Bool) :
    Inv { s0 w with host := host, fails := fails, samples := samples } :=
  ⟨fun h => (by cases h), fun _ => ⟨rfl, fun _ => rfl, fun h => (by cases h), fun _ => ⟨rfl, rfl, rfl⟩, fun h => (by cases h)⟩,
    fun _ => ⟨rfl, rfl⟩, fun _ => rfl⟩

/-- A running `RD_SEC` at its first micro-op keeps the invariant. -/
theorem inv_reading : Inv { reading .shared 0 false with sclk := .low } :=
  ⟨fun _ => ⟨by decide, rfl, .inl rfl, ⟨.sec, rfl⟩, fun _ => rfl, ⟨.low, rfl⟩, ⟨.low, rfl⟩, fun _ => ⟨.out, fun _ => rfl, rfl⟩⟩,
    fun h => absurd rfl h, fun h => (by cases h), fun h => absurd rfl h⟩

/-- UndisturbedWriteCompletes, CompletedTransactionIsOneFrame. -/
theorem witness_undisturbed_write :
    ReadyWith (showing (encode (.writeOf .sec 0x59))) (encode (.writeOf .sec 0x59)) ∧
    (showing 0x8059).noResetFor (1 + scriptCycles (config .shared) (writeScriptFrom (showing 0x8059) .sec 0x59)) = true ∧
    (showing 0x8059).noFailFor (actionCount (writeScriptFrom (showing 0x8059) .sec 0x59)) ∧
    (showing 0x8059).ceUndef = false :=
  ⟨⟨rfl, inv_s0 .shared _ _ _, rfl⟩, by simp [State.noResetFor, showing, s0, State.resetOf], .inr (by decide), rfl⟩

/-- UndisturbedReadCompletes, CompletedTransactionIsOneFrame. -/
theorem witness_undisturbed_read :
    ReadyWith (showing (encode (.readOf .year))) (encode (.readOf .year)) ∧
    (showing 0x8D00).noResetFor (1 + scriptCycles (config .shared) (readScriptFrom (showing 0x8D00) .year)) = true ∧
    (showing 0x8D00).noFailFor (actionCount (readScriptFrom (showing 0x8D00) .year)) ∧ (showing 0x8D00).ceUndef = false :=
  ⟨⟨rfl, inv_s0 .shared _ _ _, rfl⟩, by simp [State.noResetFor, showing, s0, State.resetOf], .inr (by decide), rfl⟩

/-- FirstFailureAbortsPrecisely: E9, the CE assert at position 1. -/
theorem witness_first_failure :
    let s : State := { s0 .shared with host := [some (encode (.readOf .sec))], fails := [false, true] }
    ReadyWith s (encode (.readOf .sec)) ∧ s.cfg.lineFailAdmitted = true ∧
    (readScriptFrom s .sec)[1]? = some (.drive .ce true) ∧ MicroOp.errKind? (.drive .ce true) = some .chipSelect ∧
    s.fails = List.replicate (actionCount ((readScriptFrom s .sec).take 1)) false ++ true :: [] ∧
    s.noResetFor (1 + scriptCycles s.cfg ((readScriptFrom s .sec).take 1) + 1) = true :=
  ⟨⟨rfl, inv_s0 .shared _ _ [], rfl⟩, rfl, rfl, rfl, by decide, by decide⟩

/-- GetSecondsOnTheBlock. -/
theorem witness_get_seconds :
    let s : State := { s0 .shared with fails := List.replicate 60 false, samples := List.replicate 8 true }
    s.mode = .idle ∧ Inv s ∧ s.samples = List.replicate 8 true ++ [] ∧
    1 + scriptCycles s.cfg (readScriptFrom s .sec) ≤ 2000 ∧
    s.noResetFor (scriptCycles s.cfg (readScriptFrom s .sec) + 2) = true ∧ s.noFailFor (actionCount (readScriptFrom s .sec)) :=
  ⟨rfl, inv_s0 .shared [] _ _, rfl, by decide, by simp [State.noResetFor, s0, State.resetOf], .inr (by decide)⟩

/-- InvariantKeptByEveryStep, BlockNeverStops, SequencerStaysInItsBounds: an idle and a running state. -/
theorem witness_invariant :
    (∃ s t, Inv s ∧ s.mode = .busy ∧ step s = .next t) ∧
    ∃ s t, Inv s ∧ s.cfg.wf = true ∧ s.mode = .idle ∧ step s = .next t :=
  ⟨⟨_, _, inv_reading, rfl, rfl⟩, ⟨_, _, inv_s0 .split [] [] [], by decide, rfl, rfl⟩⟩

/-- RunningTransactionEnds. -/
theorem witness_running :
    let s : State := { reading .shared 0 false with sclk := .low }
    Inv s ∧ s.mode = .busy ∧ s.noResetFor (scriptCycles s.cfg (s.script.drop s.upc)) = true :=
  ⟨inv_reading, rfl, by simp [State.noResetFor, reading, s0, State.resetOf]⟩

/-- DriveMicroOp, SetDirMicroOp, SampleMicroOp, WaitOccupiesItsCycles: each kind of micro-op is the current one somewhere,
failing and not. -/
theorem witness_micro_ops :
    (writing 1 true).currentOp = some (.drive .ce true) ∧ (writing 1 true).actionFails.1 = true ∧
    (writing 0 false).currentOp = some (.drive .sclk false) ∧ (writing 0 false).actionFails.1 = false ∧
    (writing 51 true).currentOp = some (.drive .data true) ∧
    (reading .shared 51 true).currentOp = some (.setDir .input) ∧ (reading .shared 93 false).currentOp = some (.setDir .output) ∧
    (reading .shared 55 true).currentOp = some (.sample 0) ∧ (reading .shared 90 false).currentOp = some (.sample 7) ∧
    (writing 2 false).currentOp = some (.wait .ceSetup) ∧ (writing 101 false).currentOp = some (.wait .ceRecover) ∧
    (writing 2 false).waitcnt = 0 ∧ (writing 2 false).noResetFor (max 1 (cycles (config .shared) .ceSetup)) = true ∧
    (writing 2 false).mode = .busy ∧ (writing 2 false).resetNow = false := by decide

/-- ResetTakesPriorityInEveryState, ResetRecoveryEndsInIdleWithoutResponse. -/
theorem witness_reset :
    ({ writing 30 false with resets := [true] } : State).resetNow = true ∧ (State.resetOf (config .shared)).mode = .rstWait ∧
    (State.resetOf (config .shared)).noResetFor (max 1 (State.resetOf (config .shared)).waitcnt) = true := by decide

/-- StepRunsTheDecodedRequest, IdleBlockWithoutRequestHoldsItsState, ListedWordsAreRefusedWithoutBusActivity (a word of each
clause of R120, at its edge), and the acceptance and pure statements, whose hypothesis is IDLE. -/
theorem witness_port :
    (showing 0x8D00).mode = .idle ∧ (showing 0x8D00).resetNow = false ∧ (showing 0x8D00).reqShown = some 0x8D00 ∧
    decode 0x8D00 = some .rdYear ∧ (s0 .split).reqShown = none ∧
    ((0x7FFF : ReqWord).toNat / 256 = 0x7F ∧ (0x0500 : ReqWord).toNat / 256 = 0x05 ∧ (0x8E00 : ReqWord).toNat / 256 = 0x8E) ∧
    ((0x8D01 : ReqWord).toNat / 256 = 0x8D ∧ (0x8D01 : ReqWord).toNat % 256 = 1) ∧
    ((0x0164 : ReqWord).toNat / 256 = 0x01 ∧ 99 < (0x0164 : ReqWord).toNat % 256) ∧
    ((0x030E : ReqWord).toNat / 256 = 0x03 ∧ (0x030E : ReqWord).toNat % 256 / 2 % 8 = 7) ∧
    ((0x0310 : ReqWord).toNat / 256 = 0x03 ∧ (0x0310 : ReqWord).toNat % 256 / 16 ≠ 0) := by decide

/-- RequestIsHeldUntilReady, WriteRequestsNeverReportReadError, ModeMoves, CeUndefIsSetByAbortsAndClearedByCompletions,
ResponseHeldUntilTheNextOne, LatchedInputsHoldUntilTheNextAcceptance: a running write that ends in this step. -/
theorem witness_ending_write :
    after (writing 1 true) (fun t => t.mode == .idle && t.status != .ok) = true ∧ (writing 1 true).mode = .busy ∧
    (writing 1 true).kind = .write ∧ (writing 1 true).resetNow = false ∧
    after { writing 101 false with waitcnt := 1 } (fun t => t.mode == .idle && t.status == .ok) = true := by decide

/-- ClockAndChipSelectChangeOnlyByDrives: a CE and an SCLK drive that change their lines. -/
theorem witness_line_changes :
    after (writing 1 false) (fun t => t.ce == .high) = true ∧ after (writing 5 false) (fun t => t.sclk == .high) = true := by
  decide

/-- IdleBusIsAtRestInEveryRun, DataLineDisciplineInEveryRun: the state after reset is reachable, and so is an idle one. -/
theorem witness_reachable : Reachable State.reset ∧ ∃ s, Reachable s ∧ s.mode = .idle ∧ s.ceUndef = false :=
  ⟨⟨boardConfig, [], [], [], [], 0, 0, rfl⟩,
    ⟨_, ⟨{ config .shared with tCeRecover := 0 }, [], [], [], [], 0, 1, rfl⟩, rfl, rfl⟩⟩

/-- CyclesRefineTheModelStep: a wait of 96 cycles. -/
theorem witness_refinement :
    cyclesLeft (writing 2 false) = 96 ∧ (writing 2 false).noResetFor 96 = true ∧ ∃ t, microStep (writing 2 false) = .next t :=
  ⟨by decide, by decide, ⟨_, rfl⟩⟩

/-- PureResultsDependOnTheOperandAlone, TransactionAcceptanceFrame: requests of the two halves of the operation map. -/
theorem witness_halves : (opField (encode (.brev 0xFF))).toNat ≤ 4 ∧ 0x80 ≤ (opField (encode (.wrSec 0))).toNat := by decide

/-- DecodeFollowsTheDecodeFunction: a word of each clause at the edge of its range. -/
theorem witness_decode_clauses :
    (0x0163 : ReqWord).toNat / 256 = 0x01 ∧ (0x02FF : ReqWord).toNat / 256 = 0x02 ∧ (0x030D : ReqWord).toNat / 256 = 0x03 ∧
    (0x04FF : ReqWord).toNat / 256 = 0x04 ∧ (0x8CFF : ReqWord).toNat / 256 = 0x80 + 2 * (ClockReg.index .year).toNat ∧
    (0x8D00 : ReqWord).toNat / 256 = 0x81 + 2 * (ClockReg.index .year).toNat ∧ (0xFFFF : ReqWord).toNat / 256 = 0xFF := by
  decide

/-- BcdRoundTripsThroughTheBlock, SetSecondsKeepsTheHaltFlag, GettersMaskThenDecode, TransactionsPerSequence: values at the
edges of their ranges. -/
theorem witness_values :
    (99 : Byte).toNat ≤ 99 ∧ (0x99 : Byte).toNat % 16 ≤ 9 ∧ (0x99 : Byte).toNat / 16 ≤ 9 ∧ (100 : Byte).toNat > 99 ∧
    (0x13 : Byte).getLsbD hours.modeBit.val ≠ hours.twelveValue ∧ (0xA3 : Byte).getLsbD hours.modeBit.val = hours.twelveValue ∧
    inRange .sec 59 = true ∧ inRange .day 0 = false := by decide

/-- SequencesEndAtTheFirstError: a read-modify-write whose read fails, and a sequence that comes to a result on the block. -/
theorem witness_first_error :
    (s0 .split).mode ≠ .busy ∧
    (∃ t, (askEncode 59 fun e => .done (.value e.toNat)).onBlock 1 (s0 .split) = .next (some (.value 0x59), t)) ∧
    Status.error .chipSelect ≠ .ok ∧ ((setRunning true).replay (([] : List Byte).map fun b => (Status.ok, b))).2 = none :=
  ⟨by decide, ⟨_, rfl⟩, by decide, by decide⟩

/-- RequestTextAssembles: literals of the three forms, at the ends of their ranges. -/
theorem witness_literals :
    imm8Of ['2', '5', '5'] = some 0xFF ∧ imm8Of ['0', 'x', 'f', 'F'] = some 0xFF ∧ imm8Of ['0'] = some 0x00 ∧
    imm8Of ['0', 'b', '1', '_', '0'] = some 0x02 ∧ literalOf 16 ['6', '5', '5', '3', '5'] = some 65535 ∧
    imm8Of ['2', '5', '6'] = none := by decide

/-- DecodeOfEncodeIsTheRequest, DecodedRequestReencodes. -/
theorem witness_round_trip : (Instr.bcdenc 99).wf = true ∧ decode 0x0163 = some (.bcdenc 99) := by decide

/-- BitOrderIsUnobservable: a step of a block of either bit order. -/
theorem witness_bit_order :
    ∃ t, step ({ reading .shared 55 false with cfg := { config .shared with bitOrder := .preReversed } } : State) = .next t :=
  ⟨_, rfl⟩

end Sys2Proof.Tests
end

section
/-! SUPPORT. What one block cycle that answers a next state can lead to, said once (10_state.md R34 to R53): `step_cases`,
`exec_cases` and `execMicroOp_cases` put together. -/

namespace Sys2Proof.Machine

/-! ## The decoder and the ready cycle -/

/-- `BCDENC` is read only with an operand up to 99, the one check of `Instr.wf` (R120). -/
theorem decodeBcdenc_all_wf (opd : Byte) : (decodeBcdenc opd).all Instr.wf = true := by
  unfold decodeBcdenc
  split
  · simpa [Instr.wf]
  · rfl

/-- Every request `ADDRENC`'s operand names is well formed. -/
theorem decodeAddrenc_all_wf (opd : Byte) : (decodeAddrenc opd).all Instr.wf = true := by
  unfold decodeAddrenc
  split
  · cases ClockReg.ofIndex (opd.extractLsb' 1 3) <;> rfl
  · rfl

/-- A word that decodes gives a well-formed request (R103, R120). -/
theorem decode_wf {w : ReqWord} {i : Instr} (h : decode w = some i) : i.wf = true := by
  have hall : (decode w).all Instr.wf = true := by
    simp only [decode, decodeFields, decodeRead, apply_ite (Option.all Instr.wf), decodeBcdenc_all_wf,
      decodeAddrenc_all_wf, Option.all_some, Option.all_none, Instr.wf, ite_self]
  simpa [h] using hall

@[simp] theorem State.takeRequest_snd (s : State) : s.takeRequest.2 = { s with host := s.host.tail } := rfl

/-! ## Every step -/

/-- What a step from `s` can lead to. The busy block's cases keep what `execMicroOp_cases` says of them. -/
inductive StepsTo (s : State) : State → Prop where
  /-- Reset, in place of the step (R342). -/
  | reset (hr : s.resetNow = true) : StepsTo s s.tick.applyReset
  /-- A ready cycle in which no word is shown (R320). -/
  | waits (hi : s.mode = .idle) (hq : s.reqShown = none) : StepsTo s s.tick.takeRequest.2
  /-- A read is accepted (R200). -/
  | startsRead {w : ReqWord} {i : Instr} (reg : ClockReg) (hi : s.mode = .idle) (hq : s.reqShown = some w)
      (hd : decode w = some i) : StepsTo s (s.tick.takeRequest.2.acceptRead (encode i) (cmdTable reg true))
  /-- A write is accepted (R201). -/
  | startsWrite {w : ReqWord} {i : Instr} (reg : ClockReg) (d : Byte) (hi : s.mode = .idle) (hq : s.reqShown = some w)
      (hd : decode w = some i) : StepsTo s (s.tick.takeRequest.2.acceptWrite (encode i) (cmdTable reg false) d)
  /-- A pure request is accepted and answered (R231, R232, R250, R251). -/
  | answers {w : ReqWord} {i : Instr} (r : Byte) (hi : s.mode = .idle) (hq : s.reqShown = some w)
      (hd : decode w = some i) : StepsTo s (s.tick.takeRequest.2.answer (encode i) r)
  /-- A word is refused (R310). -/
  | refuses {w : ReqWord} (hi : s.mode = .idle) (hq : s.reqShown = some w) (hd : decode w = none) :
      StepsTo s (s.tick.takeRequest.2.refuse w)
  /-- An action of the running script fails (R305). -/
  | aborts {t : State} {op : MicroOp} {kind : ErrKind} (hb : s.mode = .busy) (ho : s.currentOp = some op)
      (ha : AbortedAt s.tick t op kind) : StepsTo s t
  /-- A micro-op before the script's last completes (R162). -/
  | advances {t : State} {op : MicroOp} {ev : Event} (hb : s.mode = .busy) (ho : s.currentOp = some op)
      (he : OpEffect s.tick t op) (hc : OpCompleted s.tick t ev) (hev : acceptedIn [ev] = [])
      (hn : s.upc + 1 ≠ s.script.length) : StepsTo s t
  /-- The script's last micro-op completes, and the transaction with it (R163). -/
  | completes {t : State} {op : MicroOp} {ev : Event} (hb : s.mode = .busy) (ho : s.currentOp = some op)
      (he : OpEffect s.tick t op) (hc : OpCompleted s.tick t ev) (hev : acceptedIn [ev] = [])
      (hn : s.upc + 1 = s.script.length) : StepsTo s t
  /-- A wait of the running script goes on (R161). -/
  | counts {p : WaitParam} (hb : s.mode = .busy) (ho : s.currentOp = some (.wait p)) (hw : 1 < waitCount p s) :
      StepsTo s { s.tick with waitcnt := waitCount p s - 1 }
  /-- The reset recovery goes on (R341). -/
  | recovers (hm : s.mode = .rstWait) : StepsTo s { s.tick with waitcnt := s.waitcnt - 1 }
  /-- The reset recovery ends (R341). -/
  | recovered (hm : s.mode = .rstWait) : StepsTo s { s.tick with waitcnt := 0, mode := .idle }

/-- A request taken in a ready cycle leads to its acceptance (R103, R200, R201). -/
theorem StepsTo.of_exec {s t : State} {w : ReqWord} {i : Instr} (hi : s.mode = .idle) (hq : s.reqShown = some w)
    (hd : decode w = some i) (h : exec i s.tick.takeRequest.2 = .next t) : StepsTo s t := by
  rcases exec_cases i s.tick.takeRequest.2 with ⟨reg, -, hx⟩ | ⟨reg, d, -, hx⟩ | ⟨-, r, hx⟩ | ⟨hwf, -⟩
  · obtain rfl := Host.Outcome.next.inj (hx.symm.trans h)
    exact .startsRead reg hi hq hd
  · obtain rfl := Host.Outcome.next.inj (hx.symm.trans h)
    exact .startsWrite reg d hi hq hd
  · obtain rfl := Host.Outcome.next.inj (hx.symm.trans h)
    exact .answers r hi hq hd
  · exact absurd (decode_wf hd) (by simp [hwf])

/-- A cycle of the running script aborts, completes its micro-op, or counts a wait down (R157 to R163). -/
theorem StepsTo.of_execMicroOp {s : State} {op : MicroOp} (hb : s.mode = .busy) (ho : s.currentOp = some op) :
    StepsTo s (execMicroOp op s.tick) := by
  rcases execMicroOp_cases op s.tick with ⟨kind, -, -, ha⟩ | ⟨he, ev, hc, hev, -⟩ | ⟨p, rfl, hw, hx⟩
  · exact .aborts hb ho ha
  · by_cases hn : s.upc + 1 = s.script.length
    · exact .completes hb ho he hc hev hn
    · exact .advances hb ho he hc hev hn
  · rw [hx]
    exact .counts hb ho hw

/-- Every step is one of these. -/
theorem stepsTo_of_step {s t : State} (h : step s = .next t) : StepsTo s t := by
  rcases step_cases s with ⟨hr, he⟩ | ⟨-, hi, hq, he⟩ | ⟨-, hi, w, hq, ⟨i, hd, he⟩ | ⟨hd, he⟩⟩ | ⟨-, hb, op, ho, he⟩ |
    ⟨-, -, -, he⟩ | ⟨-, hm, he⟩ <;> rw [he] at h
  · obtain rfl := Host.Outcome.next.inj h
    exact .reset hr
  · obtain rfl := Host.Outcome.next.inj h
    exact .waits hi hq
  · exact .of_exec hi hq hd h
  · obtain rfl := Host.Outcome.next.inj h
    exact .refuses hi hq hd
  · obtain rfl := Host.Outcome.next.inj h
    exact .of_execMicroOp hb ho
  · cases h
  · obtain rfl := Host.Outcome.next.inj h
    unfold recoveryCycle
    split
    · exact .recovered hm
    · exact .recovers hm

end Sys2Proof.Machine
end

section
/-! PROOFS. The invariant holds after reset, and every step keeps it: one lemma for each thing a step can lead to
(10_state.md R33 to R49, 40_bus_engine.md R168). -/

namespace Sys2Proof.Machine

/-! ## What the invariant does not speak of -/

/-- The invariant says nothing of the trace, `refused_mark` and the coming inputs. -/
theorem Inv.frame {s t : State} (h : Inv s)
    (ht : t = { s with trace := t.trace, refusedMark := t.refusedMark, host := t.host, resets := t.resets, fails := t.fails,
                       samples := t.samples, draws := t.draws }) : Inv t := by
  rw [ht]
  exact {
    busy := fun hm =>
      have b := h.busy hm
      ⟨b.upcInScript, b.noResponse, b.waitOnly, b.command, b.readData, b.ceLevel, b.sclkLevel, b.direction⟩
    rest := fun hm =>
      have r := h.rest hm
      ⟨r.upcZero, r.waitZero, r.recovery, r.atRest, r.undefined⟩
    splitDir := h.splitDir
    noLeak := h.noLeak }

/-- The inputs of a ready cycle move on (R42). -/
theorem Inv.takeRequest {s : State} (h : Inv s) : Inv s.tick.takeRequest.2 := h.frame rfl

/-- Without a running transaction the sequencer is at the start of a script. -/
theorem Inv.idle {s : State} (h : Inv s) (hi : s.mode = .idle) : RestInv s := h.rest (by simp [hi])

/-! ## Reset -/

/-- The state after reset keeps the invariant, in every configuration (R52). -/
theorem inv_resetOf (cfg : Config) : Inv (State.resetOf cfg) where
  busy hm := nomatch hm
  rest _ := ⟨rfl, fun hm => (nomatch hm), fun _ => ⟨Nat.le_refl _, rfl, rfl⟩, fun _ => ⟨rfl, rfl, rfl⟩, fun hu => (nomatch hu)⟩
  splitDir _ := ⟨rfl, rfl⟩
  noLeak _ := rfl

/-- Settles O33: the reset state of every configuration keeps the invariant, so that of the board does. -/
theorem invariantHoldsAtReset : Obligations.InvariantHoldsAtReset := ⟨inv_resetOf boardConfig, inv_resetOf⟩

/-- A reset leads to the invariant from every state (R342). -/
theorem inv_applyReset (s : State) : Inv s.applyReset :=
  (inv_resetOf s.cfg).frame rfl

/-! ## A request in a ready cycle -/

/-- A response in IDLE keeps the invariant where an error carries no data (R44). -/
theorem Inv.respond {s : State} (h : Inv s) (hi : s.mode = .idle) {st : Status} {d : Byte} (hd : st ≠ .ok → d = 0x00) :
    Inv (s.respond st d) where
  busy hm := nomatch hm
  rest _ :=
    have r := h.idle hi
    ⟨r.upcZero, fun _ => r.waitZero hi, fun hm => (nomatch hm), r.atRest, r.undefined⟩
  splitDir := h.splitDir
  noLeak := hd

/-- A pure request keeps the invariant (R44). -/
theorem Inv.answer {s : State} (h : Inv s) (hi : s.mode = .idle) (w : ReqWord) (r : Byte) : Inv (s.answer w r) :=
  (h.respond hi (st := .ok) (d := r) fun hne => absurd rfl hne).frame rfl

/-- A refusal keeps the invariant (R310). -/
theorem Inv.refuse {s : State} (h : Inv s) (hi : s.mode = .idle) (w : ReqWord) : Inv (s.refuse w) :=
  (h.respond hi (st := .refused) fun _ => rfl).frame rfl

/-- Where no fix-up is needed, the shared line is an output (R147). -/
theorem State.ioDir_of_needsFix_false {s : State} (hw : s.cfg.wiring = .shared) (hf : s.needsFix = false) : s.ioDir = .out := by
  simpa [State.needsFix, hw] using hf

/-- At the start of a script the sequencer's invariant asks for an admitted command and a fix-up where it is needed. -/
theorem BusyInv.of_start {s : State} (hu : s.upc = 0) (hn : s.waitcnt = 0) (hv : s.rspValid = false)
    (hc : ∃ reg, s.cmd = cmdTable reg (decide (s.kind = .read))) (hd : s.kind = .read → s.wdata = 0x00)
    (hf : s.cfg.wiring = .shared → s.fix = false → s.ioDir = .out) : BusyInv s where
  upcInScript := by rw [hu]; exact script_length_pos s
  noResponse := hv
  waitOnly := .inl hn
  command := hc
  readData := hd
  ceLevel := ⟨s.ce, by simp [hu, levelAfter]⟩
  sclkLevel := ⟨s.sclk, by simp [hu, levelAfter]⟩
  direction hw := ⟨s.ioDir, hf hw, by simp [hu, dirAfter]⟩

/-- With `SPLIT` no fix-up is ever needed (R33, R147). -/
theorem State.needsFix_of_split {s : State} (hw : s.cfg.wiring = .split) : s.needsFix = false := by
  simp [State.needsFix, hw]

/-- Accepting a read keeps the invariant (R200). -/
theorem Inv.acceptRead {s : State} (h : Inv s) (hi : s.mode = .idle) (w : ReqWord) (reg : ClockReg) :
    Inv (s.acceptRead w (cmdTable reg true)) where
  busy _ := .of_start rfl ((h.idle hi).waitZero hi) rfl ⟨reg, rfl⟩ (fun _ => rfl) State.ioDir_of_needsFix_false
  rest hm := absurd rfl hm
  splitDir hw := ⟨(h.splitDir hw).1, State.needsFix_of_split hw⟩
  noLeak := h.noLeak

/-- Accepting a write keeps the invariant (R201). -/
theorem Inv.acceptWrite {s : State} (h : Inv s) (hi : s.mode = .idle) (w : ReqWord) (reg : ClockReg) (d : Byte) :
    Inv (s.acceptWrite w (cmdTable reg false) d) where
  busy _ := .of_start rfl ((h.idle hi).waitZero hi) rfl ⟨reg, rfl⟩ (fun hk => (nomatch hk)) State.ioDir_of_needsFix_false
  rest hm := absurd rfl hm
  splitDir hw := ⟨(h.splitDir hw).1, State.needsFix_of_split hw⟩
  noLeak := h.noLeak

/-! ## A cycle of the running script -/

/-- The current micro-op is one of the script's. -/
theorem State.mem_script_of_currentOp {s : State} {op : MicroOp} (ho : s.currentOp = some op) : op ∈ s.script :=
  List.mem_of_getElem? ho

/-- With `SPLIT` the running script never switches the direction (R33). -/
theorem Inv.not_switches {s : State} (h : Inv s) {op : MicroOp} (ho : s.currentOp = some op) (hw : s.cfg.wiring = .split) :
    op.switches = false := by
  cases op with
  | setDir way => exact absurd (s.mem_script_of_currentOp ho) (setDir_not_mem_script s hw (h.splitDir hw).2 way)
  | _ => rfl

/-- A micro-op that switches nothing leaves the direction. -/
theorem dirAfter_of_not_switches {op : MicroOp} (h : op.switches = false) (d : Dir) : dirAfter [op] d = d := by
  cases op with
  | setDir way => cases h
  | _ => rfl

/-- Only a wait finds the counter running (R36). -/
theorem BusyInv.waitcnt_of_action {s : State} (b : BusyInv s) {op : MicroOp} (ho : s.currentOp = some op)
    (ha : op.isAction = true) : s.waitcnt = 0 := by
  rcases b.waitOnly with h | ⟨t, ht, -⟩
  · exact h
  · obtain rfl := Option.some.inj (ho.symm.trans ht)
    cases ha

/-- The latches and the configuration fix the script. -/
theorem OpCompleted.script {s t : State} {ev : Event} (hc : OpCompleted s t ev) : t.script = s.script :=
  State.script_congr hc.latches.kind hc.latches.cmd hc.latches.wdata hc.latches.fix hc.cfg

section Completed
variable {s t : State} {op : MicroOp} {ev : Event} (h : Inv s) (hb : s.mode = .busy) (ho : s.currentOp = some op)
  (he : OpEffect s.tick t op) (hc : OpCompleted s.tick t ev)
include h ho he

include hb in
/-- A completed micro-op leaves the counter 0 (R36, R161). -/
theorem Inv.waitcnt_completed : t.waitcnt = 0 := by
  rw [he.waitcnt]
  split
  · exact (h.busy hb).waitcnt_of_action ho ‹_›
  · rfl

include hb in
/-- A completed micro-op leaves CE at the level of the script one position further. -/
theorem Inv.ce_completed : ∃ l, t.ce = levelAfter .ce (s.script.take (s.upc + 1)) l := by
  obtain ⟨l, hl⟩ := (h.busy hb).ceLevel
  exact ⟨l, by rw [take_succ_of_getElem? ho, levelAfter_append, ← hl]; exact he.ce⟩

include hb in
/-- A completed micro-op leaves SCLK at the level of the script one position further. -/
theorem Inv.sclk_completed : ∃ l, t.sclk = levelAfter .sclk (s.script.take (s.upc + 1)) l := by
  obtain ⟨l, hl⟩ := (h.busy hb).sclkLevel
  exact ⟨l, by rw [take_succ_of_getElem? ho, levelAfter_append, ← hl]; exact he.sclk⟩

include hb in
/-- A completed micro-op leaves the shared data line in the direction of the script one position further. -/
theorem Inv.ioDir_completed (hw : s.cfg.wiring = .shared) :
    ∃ d, (s.fix = false → d = .out) ∧ t.ioDir = dirAfter (s.script.take (s.upc + 1)) d := by
  obtain ⟨d, hd, hl⟩ := (h.busy hb).direction hw
  exact ⟨d, hd, by rw [take_succ_of_getElem? ho, dirAfter_append, ← hl]; exact he.ioDir⟩

include hc in
/-- With `SPLIT` a completed micro-op leaves the direction OUT (R33). -/
theorem Inv.split_completed (hw : t.cfg.wiring = .split) : t.ioDir = .out ∧ t.fix = false := by
  have hws : s.cfg.wiring = .split := by rw [← hw, hc.cfg]; rfl
  exact ⟨by rw [he.ioDir, dirAfter_of_not_switches (h.not_switches ho hws)]; exact (h.splitDir hws).1,
    hc.latches.fix.trans (h.splitDir hws).2⟩

include hb hc in
/-- A micro-op before the last keeps the invariant (R162). -/
theorem Inv.advances (hn : s.upc + 1 ≠ s.script.length) : Inv t := by
  have b := h.busy hb
  obtain ⟨hmode, hupc, hside, -⟩ := hc.goesOn hn
  have hscript : t.script = s.script := hc.script
  have hupc : t.upc = s.upc + 1 := hupc
  exact {
    busy := fun _ => {
      upcInScript := by have := b.upcInScript; rw [hscript, hupc]; omega
      noResponse := hside.rspValid.trans b.noResponse
      waitOnly := .inl (h.waitcnt_completed hb ho he)
      command := by rw [hc.latches.cmd, hc.latches.kind]; exact b.command
      readData := by rw [hc.latches.wdata, hc.latches.kind]; exact b.readData
      ceLevel := by rw [hscript, hupc]; exact h.ce_completed hb ho he
      sclkLevel := by rw [hscript, hupc]; exact h.sclk_completed hb ho he
      direction := by rw [hc.cfg, hscript, hupc, hc.latches.fix]; exact h.ioDir_completed hb ho he }
    rest := fun hm => absurd (hmode.trans hb) hm
    splitDir := h.split_completed ho he hc
    noLeak := by rw [hside.status, hside.result]; exact h.noLeak }

include hb hc in
/-- The script's last micro-op leaves the bus at rest (R154, R163). -/
theorem Inv.completes (hn : s.upc + 1 = s.script.length) : Inv t := by
  obtain ⟨hmode, hupc, hst, -, -, hce, -⟩ := hc.ends hn
  have hall : s.script.take (s.upc + 1) = s.script := by rw [hn, List.take_length]
  have hw := h.waitcnt_completed hb ho he
  have hdir : t.ioDir = .out := by
    cases hwi : s.cfg.wiring with
    | shared =>
      obtain ⟨d, hd, hl⟩ := h.ioDir_completed hb ho he hwi
      rw [hl, hall, dirAfter_script s d hd hwi]
    | split => exact (h.split_completed ho he hc (by rw [hc.cfg]; exact hwi)).1
  obtain ⟨lc, hlc⟩ := h.ce_completed hb ho he
  obtain ⟨ls, hls⟩ := h.sclk_completed hb ho he
  rw [hall] at hlc hls
  exact {
    busy := fun hm => nomatch hmode.symm.trans hm
    rest := fun _ => {
      upcZero := hupc
      waitZero := fun _ => hw
      recovery := fun hm => nomatch hmode.symm.trans hm
      atRest := fun _ => ⟨hlc.trans (levelAfter_script_ce s lc), hls.trans (levelAfter_script_sclk s ls), hdir⟩
      undefined := fun hu => nomatch hce.symm.trans hu }
    splitDir := h.split_completed ho he hc
    noLeak := fun hne => absurd hst hne }

end Completed

/-- An abort keeps the invariant: the sequencer rests, and CE is undefined (R305, R306). -/
theorem Inv.aborts {s t : State} (h : Inv s) {op : MicroOp} {kind : ErrKind} (ho : s.currentOp = some op)
    (ha : AbortedAt s.tick t op kind) : Inv t where
  busy hm := nomatch ha.mode.symm.trans hm
  rest _ :=
    ⟨ha.upc, fun _ => ha.waitcnt, fun hm => (nomatch ha.mode.symm.trans hm), fun hu => (nomatch ha.ceUndef.symm.trans hu),
      fun _ => ha.ce⟩
  splitDir hw := by
    have hws : s.cfg.wiring = .split := by rw [← hw, ha.cfg]; rfl
    refine ⟨?_, ha.latches.fix.trans (h.splitDir hws).2⟩
    rw [ha.ioDir, h.not_switches ho hws]
    exact (h.splitDir hws).1
  noLeak _ := ha.result

/-- The count of a running wait is at most its load (R36, R161). -/
theorem BusyInv.waitCount_le {s : State} (b : BusyInv s) {p : WaitParam} (ho : s.currentOp = some (.wait p)) :
    waitCount p s ≤ cycles s.cfg p := by
  unfold waitCount
  split
  · exact Nat.le_refl _
  · rcases b.waitOnly with h0 | ⟨q, hq, hlt⟩
    · contradiction
    · obtain rfl : p = q := by simpa using ho.symm.trans hq
      exact hlt.le

/-- A wait that goes on keeps the invariant (R161). -/
theorem Inv.counts {s : State} (h : Inv s) (hb : s.mode = .busy) {p : WaitParam} (ho : s.currentOp = some (.wait p))
    (hw : 1 < waitCount p s) : Inv { s.tick with waitcnt := waitCount p s - 1 } where
  busy _ :=
    have b := h.busy hb
    have hlt : waitCount p s - 1 < cycles s.cfg p := by have := b.waitCount_le ho; omega
    ⟨b.upcInScript, b.noResponse, .inr ⟨p, ho, hlt⟩, b.command, b.readData, b.ceLevel, b.sclkLevel, b.direction⟩
  rest hm := absurd hb hm
  splitDir := h.splitDir
  noLeak := h.noLeak

/-! ## The reset recovery -/

/-- The reset recovery keeps the invariant (R341). -/
theorem Inv.recovers {s : State} (h : Inv s) (hm : s.mode = .rstWait) : Inv { s.tick with waitcnt := s.waitcnt - 1 } where
  busy hb := nomatch hm.symm.trans hb
  rest _ :=
    have r := h.rest (by simp [hm])
    have ⟨hle, hv, hu⟩ := r.recovery hm
    ⟨r.upcZero, fun hi => (nomatch hm.symm.trans hi), fun _ => ⟨(Nat.sub_le _ _).trans hle, hv, hu⟩, r.atRest, r.undefined⟩
  splitDir := h.splitDir
  noLeak := h.noLeak

/-- The end of the reset recovery keeps the invariant (R341). -/
theorem Inv.recovered {s : State} (h : Inv s) (hm : s.mode = .rstWait) :
    Inv { s.tick with waitcnt := 0, mode := .idle } where
  busy hb := nomatch hb
  rest _ :=
    have r := h.rest (by simp [hm])
    ⟨r.upcZero, fun _ => rfl, fun hi => (nomatch hi), r.atRest, r.undefined⟩
  splitDir := h.splitDir
  noLeak := h.noLeak

/-! ## Every step -/

/-- Settles O34, by the cases of a step, each of which keeps the invariant. -/
theorem invariantKeptByEveryStep : Obligations.InvariantKeptByEveryStep := by
  intro s t h hs
  cases stepsTo_of_step hs with
  | reset _ => exact inv_applyReset s.tick
  | waits _ _ => exact h.takeRequest
  | startsRead reg hi _ _ => exact h.takeRequest.acceptRead hi _ reg
  | startsWrite reg d hi _ _ => exact h.takeRequest.acceptWrite hi _ reg d
  | answers r hi _ _ => exact h.takeRequest.answer hi _ r
  | refuses hi _ _ => exact h.takeRequest.refuse hi _
  | aborts _ ho ha => exact h.aborts ho ha
  | advances hb ho he hc _ hn => exact h.advances hb ho he hc hn
  | completes hb ho he hc _ hn => exact h.completes hb ho he hc hn
  | counts hb ho hw => exact h.counts hb ho hw
  | recovers hm => exact h.recovers hm
  | recovered hm => exact h.recovered hm

end Sys2Proof.Machine
end

section
/-! PROOFS. Rules about every step: the configuration, the trace, the request port, the marks, the lines, the latches, the mode
and the response (10_state.md R31 to R47, R53). Each is read off the cases of `StepsTo`. -/

namespace Sys2Proof.Machine

/-! ## The configuration and the trace -/

/-- The configuration after a step is the one before it, a reset included (R53). -/
theorem StepsTo.cfg_eq {s t : State} (h : StepsTo s t) : t.cfg = s.cfg := by
  cases h with
  | aborts _ _ ha => exact ha.cfg
  | advances _ _ _ hc | completes _ _ _ hc => exact hc.cfg
  | _ => simp

/-- Settles O39: no case of a step writes the configuration. -/
theorem configurationNeverChanges : Obligations.ConfigurationNeverChanges := fun _ _ h => (stepsTo_of_step h).cfg_eq

/-- A step appends its events to the trace; outside IDLE it accepts nothing and takes no word from the host (R42, R43, R47). -/
theorem StepsTo.appends {s t : State} (h : StepsTo s t) :
    ∃ es, t.trace = s.trace ++ es ∧ (s.mode ≠ .idle → t.host = s.host ∧ acceptedIn es = []) := by
  cases h with
  | reset _ => exact ⟨[.reset], rfl, fun _ => ⟨rfl, rfl⟩⟩
  | waits hi _ => exact ⟨[], by simp, fun hm => absurd hi hm⟩
  | startsRead _ hi _ _ | startsWrite _ _ hi _ _ => exact ⟨[_], rfl, fun hm => absurd hi hm⟩
  | answers _ hi _ _ | refuses hi _ _ => exact ⟨[_, _], List.append_assoc s.trace [_] [_], fun hm => absurd hi hm⟩
  | aborts _ _ ha => exact ⟨_, ha.trace, fun _ => ⟨ha.host, rfl⟩⟩
  | advances _ _ _ hc hev hn =>
    obtain ⟨-, -, -, ht⟩ := hc.goesOn hn
    exact ⟨_, ht, fun _ => ⟨hc.host, hev⟩⟩
  | @completes _ _ ev _ _ _ hc hev hn =>
    obtain ⟨-, -, -, -, -, -, ht⟩ := hc.ends hn
    refine ⟨[ev] ++ [_], ht, fun _ => ⟨hc.host, ?_⟩⟩
    rw [acceptedIn_append, hev]
    rfl
  | counts _ _ _ | recovers _ | recovered _ => exact ⟨[], by simp, fun _ => ⟨rfl, rfl⟩⟩

/-- Settles O40: the trace after a step is the trace before it and the events it appends. -/
theorem traceOnlyGrows : Obligations.TraceOnlyGrows := by
  intro s t h
  obtain ⟨es, ht, -⟩ := (stepsTo_of_step h).appends
  exact ⟨es, ht⟩

/-- Settles O25: what a step outside IDLE appends accepts nothing, and the host's words stay. -/
theorem requestIsHeldUntilReady : Obligations.RequestIsHeldUntilReady := by
  refine fun s t => ⟨by simp [State.reqReady], fun hm h => ?_⟩
  obtain ⟨es, ht, hes⟩ := (stepsTo_of_step h).appends
  obtain ⟨hhost, hacc⟩ := hes hm
  exact ⟨hhost, es, ht, hacc⟩

/-! ## The marks -/

/-- The host shows a word in a ready cycle that decodes to no request (R120). -/
def State.refusable (s : State) : Prop := ∃ w, s.mode = .idle ∧ s.reqShown = some w ∧ decode w = none

theorem State.not_refusable_of_mode {s : State} (h : s.mode ≠ .idle) : ¬ s.refusable := fun ⟨_, hi, _⟩ => h hi

theorem State.not_refusable_of_decodes {s : State} {w : ReqWord} {i : Instr} (hq : s.reqShown = some w)
    (hd : decode w = some i) : ¬ s.refusable := by
  rintro ⟨v, -, hv, hn⟩
  obtain rfl := Option.some.inj (hv.symm.trans hq)
  exact nomatch hn.symm.trans hd

/-- Without a reset, a step either refuses a word and sets `refused_mark`, or leaves it (R46, R310). -/
theorem StepsTo.refusedMark_cases {s t : State} (h : StepsTo s t) (hr : s.resetNow = false) :
    (s.refusable ∧ t.refusedMark = true) ∨ (¬ s.refusable ∧ t.refusedMark = s.refusedMark) := by
  cases h with
  | reset ht => exact nomatch hr.symm.trans ht
  | waits _ hq => exact .inr ⟨fun ⟨_, _, hw, _⟩ => (nomatch hq.symm.trans hw), by simp⟩
  | startsRead _ _ hq hd | startsWrite _ _ _ hq hd | answers _ _ hq hd =>
    exact .inr ⟨State.not_refusable_of_decodes hq hd, by simp⟩
  | refuses hi hq hd => exact .inl ⟨⟨_, hi, hq, hd⟩, rfl⟩
  | aborts hb _ ha => exact .inr ⟨State.not_refusable_of_mode (by simp [hb]), ha.refusedMark⟩
  | advances hb _ _ hc | completes hb _ _ hc => exact .inr ⟨State.not_refusable_of_mode (by simp [hb]), hc.refusedMark⟩
  | counts hm | recovers hm | recovered hm => exact .inr ⟨State.not_refusable_of_mode (by simp [hm]), rfl⟩

/-- Settles O41: a step that refuses sets the mark, any other leaves it. -/
theorem refusedMarkIsSticky : Obligations.RefusedMarkIsSticky := by
  intro s t hr h
  change t.refusedMark = true ↔ s.refusedMark = true ∨ s.refusable
  rcases (stepsTo_of_step h).refusedMark_cases hr with ⟨hs, ht⟩ | ⟨hs, ht⟩ <;> simp [hs, ht]

/-- Settles O42, by the cases of a step. -/
theorem ceUndefIsSetByAbortsAndClearedByCompletions : Obligations.CeUndefIsSetByAbortsAndClearedByCompletions := by
  intro s t hr h
  cases stepsTo_of_step h with
  | reset ht => exact nomatch hr.symm.trans ht
  | waits hm | startsRead _ hm | startsWrite _ _ hm | answers _ hm | refuses hm | recovers hm | recovered hm =>
    exact ⟨fun _ => by simp, fun _ _ => by simp, fun hb => (nomatch hm.symm.trans hb)⟩
  | @aborts _ _ kind hb _ ha =>
    exact ⟨fun hm => absurd hb hm, fun _ hm => (nomatch ha.mode.symm.trans hm),
      fun _ _ => .inr ⟨kind, ha.status, ha.ceUndef, ha.ce⟩⟩
  | advances hb _ _ hc _ hn =>
    obtain ⟨hmode, -, hside, -⟩ := hc.goesOn hn
    exact ⟨fun hm => absurd hb hm, fun _ _ => hside.ceUndef, fun _ hi => (nomatch (hmode.trans hb).symm.trans hi)⟩
  | completes hb _ _ hc _ hn =>
    obtain ⟨hmode, -, hst, -, -, hce, -⟩ := hc.ends hn
    exact ⟨fun hm => absurd hb hm, fun _ hm => (nomatch hmode.symm.trans hm), fun _ _ => .inl ⟨hst, hce⟩⟩
  | counts hb => exact ⟨fun _ => rfl, fun _ _ => rfl, fun _ hi => (nomatch hb.symm.trans hi)⟩

/-! ## The lines and the latches -/

/-- CE and SCLK keep their level at a micro-op that does not drive them (R157). -/
theorem levelAfter_of_not_drives {line : Line} {op : MicroOp} (hl : line ≠ .data) (h : ∀ high, op ≠ .drive line high)
    (l : Level) : levelAfter line [op] l = l := by
  cases op with
  | drive ln high =>
    have : ln ≠ line := fun he => h high (by rw [he])
    simp [levelAfter, this]
  | setDir way => cases way <;> simp [levelAfter, hl]
  | sample i | wait t => rfl

/-- A completed micro-op moves CE only where it drives it (R157). -/
theorem OpEffect.drives_of_ce_ne {s t : State} {op : MicroOp} (he : OpEffect s t op) (h : t.ce ≠ s.ce) :
    ∃ high, op = .drive .ce high := by
  by_contra hn
  exact h (he.ce.trans (levelAfter_of_not_drives (by decide) (fun high hop => hn ⟨high, hop⟩) _))

/-- A completed micro-op moves SCLK only where it drives it (R157). -/
theorem OpEffect.drives_of_sclk_ne {s t : State} {op : MicroOp} (he : OpEffect s t op) (h : t.sclk ≠ s.sclk) :
    ∃ high, op = .drive .sclk high := by
  by_contra hn
  exact h (he.sclk.trans (levelAfter_of_not_drives (by decide) (fun high hop => hn ⟨high, hop⟩) _))

/-- An abort moves SCLK only where its action drives it (R305). -/
theorem AbortedAt.drives_of_sclk_ne {s t : State} {op : MicroOp} {kind : ErrKind} (ha : AbortedAt s t op kind)
    (h : t.sclk ≠ s.sclk) : ∃ high, op = .drive .sclk high := by
  cases op with
  | drive line high => cases line <;> simp_all [ha.sclk, MicroOp.drives]
  | _ => exact absurd (by simp [ha.sclk, MicroOp.drives]) h

/-- Settles O43, by the cases of a step. -/
theorem clockAndChipSelectChangeOnlyByDrives : Obligations.ClockAndChipSelectChangeOnlyByDrives := by
  intro s t hr h
  cases stepsTo_of_step h with
  | reset ht => exact nomatch hr.symm.trans ht
  | @aborts _ _ kind hb ho ha =>
    exact ⟨fun _ => ⟨hb, .inr ⟨kind, ha.mode, ha.status⟩⟩, fun hne =>
      have ⟨high, hop⟩ := ha.drives_of_sclk_ne hne
      ⟨hb, high, hop ▸ ho⟩⟩
  | advances hb ho he | completes hb ho he =>
    exact ⟨fun hne =>
        have ⟨high, hop⟩ := he.drives_of_ce_ne hne
        ⟨hb, .inl ⟨high, hop ▸ ho⟩⟩,
      fun hne =>
        have ⟨high, hop⟩ := he.drives_of_sclk_ne hne
        ⟨hb, high, hop ▸ ho⟩⟩
  | _ => simp

/-- Settles O44, by the cases of a step. -/
theorem latchedInputsHoldUntilTheNextAcceptance : Obligations.LatchedInputsHoldUntilTheNextAcceptance := by
  intro s t hr h hna
  cases stepsTo_of_step h with
  | reset ht => exact nomatch hr.symm.trans ht
  | startsRead _ hi | startsWrite _ _ hi => exact absurd ⟨hi, rfl⟩ hna
  | aborts _ _ ha => exact ⟨ha.latches.kind, ha.latches.cmd, ha.latches.wdata, ha.latches.fix⟩
  | advances _ _ _ hc | completes _ _ _ hc => exact ⟨hc.latches.kind, hc.latches.cmd, hc.latches.wdata, hc.latches.fix⟩
  | _ => constructor <;> simp

/-! ## The mode and the response -/

/-- The block is IDLE and its trace ends in the response it shows (R44). -/
structure JustResponded (t : State) : Prop where
  mode     : t.mode = .idle
  rspValid : t.rspValid = true
  trace    : ∃ es, t.trace = es ++ [.respond t.status t.result]

/-- The step from `s` to `t` gave no response: RESULT and STATUS.ERR are as before, and so is `rsp_valid` unless a transaction
starts; a running transaction goes on. -/
structure NoResponse (s t : State) : Prop where
  result   : t.result = s.result
  status   : t.status = s.status
  rspValid : t.rspValid = s.rspValid ∨ (s.mode = .idle ∧ t.mode = .busy ∧ t.rspValid = false)
  running  : s.mode = .busy → t.mode = .busy

/-- Without a reset, a step ends in a response or gives none (R39, R41, R44). -/
theorem StepsTo.response_cases {s t : State} (h : StepsTo s t) (hr : s.resetNow = false) :
    JustResponded t ∨ NoResponse s t := by
  cases h with
  | reset ht => exact nomatch hr.symm.trans ht
  | waits hm | recovers hm | recovered hm => exact .inr ⟨by simp, by simp, .inl (by simp), fun hb => (nomatch hm.symm.trans hb)⟩
  | startsRead _ hi | startsWrite _ _ hi => exact .inr ⟨by simp, by simp, .inr ⟨hi, rfl, rfl⟩, fun _ => rfl⟩
  | answers | refuses => exact .inl ⟨rfl, rfl, _, rfl⟩
  | @aborts _ op kind _ _ ha =>
    refine .inl ⟨ha.mode, ha.rspValid, s.trace ++ [.fail op kind], ?_⟩
    rw [ha.trace, ha.status, ha.result, List.append_assoc]
    rfl
  | advances hb _ _ hc _ hn =>
    obtain ⟨hmode, -, hside, -⟩ := hc.goesOn hn
    exact .inr ⟨hside.result, hside.status, .inl hside.rspValid, fun _ => hmode.trans hb⟩
  | @completes _ _ ev _ _ _ hc _ hn =>
    obtain ⟨hmode, -, hst, -, hv, -, ht⟩ := hc.ends hn
    refine .inl ⟨hmode, hv, s.trace ++ [ev], ?_⟩
    rw [ht, hst, List.append_assoc]
    rfl
  | counts hb => exact .inr ⟨rfl, rfl, .inl rfl, fun _ => hb⟩

/-- Settles O46: a step that changes RESULT or STATUS.ERR, or raises `rsp_valid`, is one that responds. -/
theorem responseHeldUntilTheNextOne : Obligations.ResponseHeldUntilTheNextOne := by
  intro s t hr h
  rcases (stepsTo_of_step h).response_cases hr with ht | hn
  · exact ⟨fun _ => ⟨ht.mode, ht.rspValid, ht.trace⟩, fun _ hf => (nomatch ht.rspValid.symm.trans hf)⟩
  · refine ⟨fun hc => ?_, fun hv hf => ?_⟩
    · rcases hc with hc | hc | ⟨hf, hv⟩
      · exact absurd hn.result hc
      · exact absurd hn.status hc
      · rcases hn.rspValid with he | ⟨-, -, hf'⟩
        · exact nomatch hf.symm.trans (he.symm.trans hv)
        · exact nomatch hf'.symm.trans hv
    · rcases hn.rspValid with he | ⟨hi, hb, -⟩
      · exact nomatch hf.symm.trans (he.trans hv)
      · exact ⟨hi, hb⟩

/-- Without a reset, the mode stays, a transaction starts at the script's first micro-op, or the block becomes IDLE (R34). -/
theorem StepsTo.mode_cases {s t : State} (h : StepsTo s t) (hr : s.resetNow = false) :
    t.mode = s.mode ∨ (s.mode = .idle ∧ t.mode = .busy ∧ t.upc = 0 ∧ t.rspValid = false) ∨ t.mode = .idle := by
  cases h with
  | reset ht => exact nomatch hr.symm.trans ht
  | waits | counts | recovers => exact .inl rfl
  | startsRead _ hi | startsWrite _ _ hi => exact .inr (.inl ⟨hi, rfl, rfl, rfl⟩)
  | answers | refuses | recovered => exact .inr (.inr rfl)
  | aborts _ _ ha => exact .inr (.inr ha.mode)
  | advances _ _ _ hc _ hn => exact .inl (hc.goesOn hn).1
  | completes _ _ _ hc _ hn => exact .inr (.inr (hc.ends hn).1)

/-- Settles O45, from where the mode can move and what a step that ends BUSY responds. -/
theorem modeMoves : Obligations.ModeMoves := by
  intro s t hr h
  have hst := stepsTo_of_step h
  refine ⟨fun hm => ?_, fun hm => ?_, fun hb hi => ?_⟩
  · rcases hst.mode_cases hr with he | ⟨-, hb, -⟩ | hi
    · exact he.symm.trans hm
    · exact nomatch hb.symm.trans hm
    · exact nomatch hi.symm.trans hm
  · rcases hst.mode_cases hr with he | ⟨hi, -, hu, hv⟩ | hi
    · exact .inl (he.symm.trans hm)
    · exact .inr ⟨hi, hu, hv⟩
    · exact nomatch hi.symm.trans hm
  · rcases hst.response_cases hr with ht | hn
    · exact ⟨ht.rspValid, ht.trace⟩
    · exact nomatch hi.symm.trans (hn.running hb)

end Sys2Proof.Machine
end

section
/-! PROOFS. The views of the state, and what follows from the invariant and its step lemma: the sequencer's bounds, that no step
stops, and that a running transaction ends (10_state.md R36, R39, R43, R49, R52, 60_exceptions.md R316). -/

namespace Sys2Proof.Machine

/-! ## Views of the state -/

/-- Settles O20: the values hold in every configuration's reset state. -/
theorem resetStateHoldsItsValues : Obligations.ResetStateHoldsItsValues := by
  unfold Obligations.ResetStateHoldsItsValues State.reset
  generalize boardConfig = cfg
  exact ⟨rfl, rfl, rfl, rfl, rfl, rfl, rfl, rfl, rfl, rfl, rfl, rfl, rfl, rfl, rfl, rfl, rfl, rfl⟩

/-- Settles O23: of the cases of a step, only the ready cycle with a request that decodes is left. -/
theorem stepRunsTheDecodedRequest : Obligations.StepRunsTheDecodedRequest := by
  intro s w i hi hr hq hd
  rcases step_cases s with ⟨ht, -⟩ | ⟨-, -, hn, -⟩ | ⟨-, -, v, hv, ⟨j, hj, he⟩ | ⟨hj, -⟩⟩ | ⟨-, hb, -⟩ | ⟨-, hb, -⟩ | ⟨-, hb, -⟩
  · exact nomatch hr.symm.trans ht
  · exact nomatch hn.symm.trans hq
  · obtain rfl := Option.some.inj (hv.symm.trans hq)
    obtain rfl := Option.some.inj (hj.symm.trans hd)
    exact he
  · obtain rfl := Option.some.inj (hv.symm.trans hq)
    exact nomatch hj.symm.trans hd
  all_goals exact nomatch hi.symm.trans hb

/-- STATUS.BUSY counts 1 outside IDLE (R39). -/
theorem State.busyFlag_toNat (s : State) : s.busyFlag.toNat = if s.mode = .idle then 0 else 1 := by
  by_cases h : s.mode = .idle <;> simp [State.busyFlag, h]

/-- The STATUS byte adds up from its fields, whatever they hold (R39). -/
theorem statusFields_toNat (busy ceUndef : Bool) (code : BitVec 3) :
    (0#3 ++ BitVec.ofBool busy ++ BitVec.ofBool ceUndef ++ code).toNat =
      code.toNat + 8 * ceUndef.toNat + 16 * busy.toNat := by
  revert busy ceUndef code
  decide

/-- Settles O26, from the value of the STATUS byte for all its fields and the codes of the six statuses. -/
theorem statusRegisterLayout : Obligations.StatusRegisterLayout := by
  refine ⟨fun s => ?_, rfl, rfl, rfl, rfl, rfl, rfl, fun st => ?_⟩
  · rw [← s.busyFlag_toNat]
    exact statusFields_toNat s.busyFlag s.ceUndef s.status.code
  · rcases st with _ | kind | _
    · decide
    · cases kind <;> decide
    · decide

/-! ## No step stops -/

/-- A request is always accepted or refused, never stopped at. -/
theorem exec_next (i : Instr) (s : State) : ∃ t, exec i s = .next t := by
  rcases exec_cases i s with ⟨_, -, hx⟩ | ⟨_, _, -, hx⟩ | ⟨-, _, hx⟩ | ⟨-, hx⟩ <;> exact ⟨_, hx⟩

/-- A running script has a current micro-op (R49). -/
theorem Inv.currentOp_ne_none {s : State} (h : Inv s) (hb : s.mode = .busy) : s.currentOp ≠ none := by
  have := (h.busy hb).upcInScript
  simpa [State.currentOp] using this

/-- Settles O38: the one stop is a busy state past its script's end. -/
theorem blockNeverStops : Obligations.BlockNeverStops := by
  intro s h
  rcases step_cases s with ⟨-, he⟩ | ⟨-, -, -, he⟩ | ⟨-, -, w, -, ⟨i, -, he⟩ | ⟨-, he⟩⟩ | ⟨-, -, op, -, he⟩ |
    ⟨-, hb, ho, -⟩ | ⟨-, -, he⟩
  · exact ⟨_, he⟩
  · exact ⟨_, he⟩
  · obtain ⟨t, ht⟩ := exec_next i s.tick.takeRequest.2
    exact ⟨t, he.trans ht⟩
  · exact ⟨_, he⟩
  · exact ⟨_, he⟩
  · exact absurd ho (h.currentOp_ne_none hb)
  · exact ⟨_, he⟩

/-! ## The sequencer's bounds -/

/-- `upc` stays, moves one on, or returns to 0 (R49). -/
theorem StepsTo.upc_cases {s t : State} (h : StepsTo s t) : t.upc = s.upc ∨ t.upc = s.upc + 1 ∨ t.upc = 0 := by
  cases h with
  | reset | startsRead | startsWrite => exact .inr (.inr rfl)
  | aborts _ _ ha => exact .inr (.inr ha.upc)
  | advances _ _ _ hc _ hn => exact .inr (.inl (hc.goesOn hn).2.1)
  | completes _ _ _ hc _ hn => exact .inr (.inr (hc.ends hn).2.1)
  | _ => exact .inl (by simp)

/-- The longest script is a write's with the fix-up (R155, R156). -/
theorem script_length_le (s : State) : s.script.length ≤ 103 := by
  cases hk : s.kind <;> cases hf : s.fix <;> cases hw : s.cfg.wiring <;>
    simp [State.script, hk, hf, hw, writeScript, readScript, fixup, prologue, epilogue, turnIn, turnOut]

/-- With the invariant `upc` stays within a script (R35, R49). -/
theorem Inv.upc_le {s : State} (h : Inv s) : s.upc ≤ 102 := by
  by_cases hb : s.mode = .busy
  · have := (h.busy hb).upcInScript
    have := script_length_le s
    omega
  · simp [(h.rest hb).upcZero]

/-- An admitted configuration's counter holds every count (R7, R36). -/
theorem Config.cycles_lt_of_wf {cfg : Config} (h : cfg.wf = true) (p : WaitParam) : cycles cfg p < 2 ^ cfg.wWait := by
  have hall : cfg.waitWf = true := (Bool.and_eq_true _ _ ▸ h).2
  have hp : p ∈ WaitParam.all := by cases p <;> decide
  exact of_decide_eq_true (List.all_eq_true.mp hall p hp)

/-- With the invariant the wait counter is 0 or at most the count of a wait (R36). -/
theorem Inv.waitcnt_le {s : State} (h : Inv s) : s.waitcnt = 0 ∨ ∃ p, s.waitcnt ≤ cycles s.cfg p := by
  cases hm : s.mode with
  | idle => exact .inl ((h.idle hm).waitZero hm)
  | busy =>
    rcases (h.busy hm).waitOnly with h0 | ⟨p, -, hlt⟩
    · exact .inl h0
    · exact .inr ⟨p, hlt.le⟩
  | rstWait => exact .inr ⟨.ceRecover, ((h.rest (by simp [hm])).recovery hm).1⟩

/-- In an admitted configuration the wait counter fits its width (R36, R316). -/
theorem Inv.waitcnt_lt {s : State} (h : Inv s) (hwf : s.cfg.wf = true) : s.waitcnt < 2 ^ s.cfg.wWait := by
  rcases h.waitcnt_le with h0 | ⟨p, hle⟩
  · rw [h0]
    exact Nat.two_pow_pos _
  · exact hle.trans_lt (Config.cycles_lt_of_wf hwf p)

/-- Settles O37: the bounds follow from the invariant of the state after the step. -/
theorem sequencerStaysInItsBounds : Obligations.SequencerStaysInItsBounds := by
  intro s t h hwf hs
  have ht : Inv t := invariantKeptByEveryStep s t h hs
  have hst := stepsTo_of_step hs
  exact ⟨hst.upc_cases, ht.upc_le, ht.waitcnt_lt (by rwa [hst.cfg_eq])⟩

/-! ## A running transaction ends -/

/-- The block cycles that a running script still takes where no action fails: what is left of its current micro-op, and the
micro-ops after it (R352). -/
def cyclesToEnd (s : State) : Nat := cyclesLeft s + scriptCycles s.cfg (s.script.drop (s.upc + 1))

/-- A micro-op takes a cycle at least (R352). -/
theorem cyclesLeft_pos (s : State) : 0 < cyclesLeft s := by
  unfold cyclesLeft
  split
  · exact Nat.one_pos
  · omega
  · split
    · omega
    · exact Nat.one_pos

/-- A counter that runs holds the count (R161). -/
theorem waitCount_of_running {s : State} {p : WaitParam} (h : s.waitcnt ≠ 0) : waitCount p s = s.waitcnt := if_neg h

/-- While its script's wait runs, the block has the counter's cycles left (R161). -/
theorem cyclesLeft_wait {s : State} (hb : s.mode = .busy) {p : WaitParam} (ho : s.currentOp = some (.wait p)) :
    cyclesLeft s = max 1 (waitCount p s) := by
  simp [cyclesLeft, hb, ho]

/-- A micro-op has at most its own cycles left, and all of them at its start (R161, R352). -/
theorem BusyInv.cyclesLeft_le {s : State} (b : BusyInv s) (hb : s.mode = .busy) {op : MicroOp} (ho : s.currentOp = some op) :
    cyclesLeft s ≤ opCycles s.cfg op := by
  cases op with
  | wait p =>
    have := b.waitCount_le ho
    rw [cyclesLeft_wait hb ho]
    simp only [opCycles, waitCycles]
    omega
  | _ => simp [cyclesLeft, hb, ho, opCycles]

/-- What the rest of a script takes, from its current micro-op on. -/
theorem scriptCycles_drop_currentOp {s : State} {op : MicroOp} (ho : s.currentOp = some op) :
    scriptCycles s.cfg (s.script.drop s.upc) = opCycles s.cfg op + scriptCycles s.cfg (s.script.drop (s.upc + 1)) := by
  obtain ⟨hlt, hop⟩ := List.getElem?_eq_some_iff.mp ho
  rw [List.drop_eq_getElem_cons hlt, hop]
  simp [scriptCycles]

/-- A running script ends within the cycles of its rest. -/
theorem Inv.cyclesToEnd_le {s : State} (h : Inv s) (hb : s.mode = .busy) :
    cyclesToEnd s ≤ scriptCycles s.cfg (s.script.drop s.upc) := by
  obtain ⟨op, ho⟩ := Option.ne_none_iff_exists'.mp (h.currentOp_ne_none hb)
  have := (h.busy hb).cyclesLeft_le hb ho
  rw [scriptCycles_drop_currentOp ho, cyclesToEnd]
  omega

/-- A cycle of a running transaction, without a reset, ends it with a response or brings its end nearer. -/
theorem Inv.step_nearer_end {s t : State} (h : Inv s) (hb : s.mode = .busy) (hr : s.resetNow = false)
    (hs : step s = .next t) :
    (t.mode = .idle ∧ t.rspValid = true) ∨ (t.mode = .busy ∧ t.resets = s.resets.tail ∧ cyclesToEnd t < cyclesToEnd s) := by
  have ht : Inv t := invariantKeptByEveryStep s t h hs
  cases stepsTo_of_step hs with
  | reset hr' => exact nomatch hr.symm.trans hr'
  | waits hm | startsRead _ hm | startsWrite _ _ hm | answers _ hm | refuses hm | recovers hm | recovered hm =>
    exact nomatch hb.symm.trans hm
  | aborts _ _ ha => exact .inl ⟨ha.mode, ha.rspValid⟩
  | completes _ _ _ hc _ hn =>
    obtain ⟨hmode, -, -, -, hv, -, -⟩ := hc.ends hn
    exact .inl ⟨hmode, hv⟩
  | advances _ _ he hc _ hn =>
    obtain ⟨hmode, hupc, -, -⟩ := hc.goesOn hn
    have hbt : t.mode = .busy := hmode.trans hb
    have hrest := ht.cyclesToEnd_le hbt
    have hscript : t.script = s.script := hc.script
    have hcfg : t.cfg = s.cfg := hc.cfg
    have hupc : t.upc = s.upc + 1 := hupc
    rw [hscript, hcfg, hupc] at hrest
    exact .inr ⟨hbt, he.resets, hrest.trans_lt (Nat.lt_add_of_pos_left (cyclesLeft_pos s))⟩
  | @counts p _ ho hw =>
    have hc : waitCount p { s.tick with waitcnt := waitCount p s - 1 } = waitCount p s - 1 :=
      waitCount_of_running (Nat.sub_pos_of_lt hw).ne'
    refine .inr ⟨hb, rfl, Nat.add_lt_add_right ?_ _⟩
    rw [cyclesLeft_wait (s := { s.tick with waitcnt := waitCount p s - 1 }) hb ho, cyclesLeft_wait hb ho, hc]
    omega

/-- No reset event in the coming cycles is none in this one, and none in those after it. -/
theorem State.noResetFor_succ (s : State) (n : Nat) (h : s.noResetFor (n + 1) = true) :
    s.resetNow = false ∧ (s.resets.tail.take n).all (· == false) = true := by
  cases hs : s.resets with
  | nil => simp [State.resetNow, hs]
  | cons b rest => simpa [State.noResetFor, State.resetNow, hs] using h

/-- A machine's run after a step that answers a next state. -/
theorem run_succ_of_step {M : Host.Core} {s t : M.State} (h : M.step s = .next t) (k : Nat) :
    M.run (k + 1) s = M.run k t := by
  simp only [Host.Core.run, h]

/-- One step and then `k` more. -/
theorem runN_succ_of_step {s t : State} (h : step s = .next t) (k : Nat) : runN (k + 1) s = runN k t :=
  run_succ_of_step (M := core) h k

/-- Within any number of cycles that covers its script's rest, a running transaction ends in a response. -/
theorem Inv.ends_within : ∀ (n : Nat) {s : State}, Inv s → s.mode = .busy → cyclesToEnd s ≤ n → s.noResetFor n = true →
    ∃ k t, 0 < k ∧ k ≤ n ∧ runN k s = .next t ∧ t.mode = .idle ∧ t.rspValid = true
  | 0, s, _, _, hn, _ => by
    have := cyclesLeft_pos s
    rw [cyclesToEnd] at hn
    omega
  | n + 1, s, h, hb, hn, hres => by
    obtain ⟨hr, hrest⟩ := s.noResetFor_succ n hres
    obtain ⟨t, hs⟩ := blockNeverStops s h
    rcases h.step_nearer_end hb hr hs with ⟨hi, hv⟩ | ⟨hbt, hresets, hlt⟩
    · exact ⟨1, t, Nat.one_pos, by omega, runN_succ_of_step hs 0, hi, hv⟩
    · have hres' : t.noResetFor n = true := by rwa [State.noResetFor, hresets]
      obtain ⟨k, u, -, hk, hrun, hi, hv⟩ :=
        Inv.ends_within n (invariantKeptByEveryStep s t h hs) hbt (by omega) hres'
      exact ⟨k + 1, u, k.succ_pos, by omega, (runN_succ_of_step hs k).trans hrun, hi, hv⟩

/-- Settles O53: every cycle brings the end nearer, and the rest of the script bounds how far it is. -/
theorem runningTransactionEnds : Obligations.RunningTransactionEnds := fun _ h hb hres =>
  Inv.ends_within _ h hb (h.cyclesToEnd_le hb) hres

end Sys2Proof.Machine
end

section
/-! PROOFS. The pure requests: what accepting each does, in every state, and that their answers depend on the operand alone
(20_memory.md R79, 42_framer.md R231, R232, 43_bcd.md R250, R251). -/

namespace Sys2Proof.Machine

/-! ## Accepting a pure request, in every state -/

/-- `BCDENC` of a value up to 99 (R250). -/
theorem exec_bcdenc_of_le {v : Byte} (h : v.toNat ≤ 99) (s : State) :
    exec (.bcdenc v) s = .next (s.answer (encode (.bcdenc v)) (BitVec.ofNat 8 (bcdEncode v.toNat))) := if_pos h

/-- `BCDENC` of a value above 99 (R250). -/
theorem exec_bcdenc_of_not_le {v : Byte} (h : ¬ v.toNat ≤ 99) (s : State) :
    exec (.bcdenc v) s = .next (s.refuse (encode (.bcdenc v))) := if_neg h

/-- `BCDDEC` (R251). -/
theorem exec_bcddec (raw : Byte) (s : State) :
    exec (.bcddec raw) s = .next (s.answer (encode (.bcddec raw)) (BitVec.ofNat 8 (bcdDecode raw.toNat))) := rfl

/-- `ADDRENC` (R231). -/
theorem exec_addrenc (reg : ClockReg) (rd : Bool) (s : State) :
    exec (.addrenc reg rd) s = .next (s.answer (encode (.addrenc reg rd)) (cmdTable reg rd)) := rfl

/-- `BREV` (R232). -/
theorem exec_brev (x : Byte) (s : State) :
    exec (.brev x) s = .next (s.answer (encode (.brev x)) (reverseByte x)) := rfl

/-! ## The answer is chosen before the state is known -/

/-- A pure request answers one byte in every state, or is refused in every state. -/
theorem exec_pure_uniform {i : Instr} (hop : (opField (encode i)).toNat ≤ 4) :
    (∃ r, ∀ s, exec i s = .next (s.answer (encode i) r)) ∨ (∀ s, exec i s = .next (s.refuse (encode i))) := by
  cases i with
  | bcdenc v =>
    by_cases hv : v.toNat ≤ 99
    · exact .inl ⟨_, exec_bcdenc_of_le hv⟩
    · exact .inr (exec_bcdenc_of_not_le hv)
  | bcddec raw => exact .inl ⟨_, exec_bcddec raw⟩
  | addrenc reg rd => exact .inl ⟨_, exec_addrenc reg rd⟩
  | brev x => exact .inl ⟨_, exec_brev x⟩
  | _ => simp [encode, opField_reqWord] at hop -- a transaction's operation is 0x80 at least

/-- Settles O12: an answer's RESULT and STATUS.ERR are its byte and OK, and a refusal's are 0x00 and REFUSED, whatever the
state was. -/
theorem pureResultsDependOnTheOperandAlone : Obligations.PureResultsDependOnTheOperandAlone := by
  intro i hop s s'
  rcases exec_pure_uniform hop with ⟨r, hx⟩ | hx
  · exact ⟨_, _, hx s, hx s', by simp only [State.answer_result], by simp only [State.answer_status]⟩
  · exact ⟨_, _, hx s, hx s', by simp only [State.refuse_result], by simp only [State.refuse_status]⟩

end Sys2Proof.Machine
end

section
/-! PROOFS. The decoder and the encoder are inverse to each other, the decoder is R103's, and the words of R120 are refused
(30_encoding.md R100 to R121, 60_exceptions.md R310). -/

namespace Sys2Proof

/-! ## The two fields, as numbers (R100) -/

theorem opField_toNat (w : ReqWord) : (opField w).toNat = w.toNat / 256 := by
  have := w.isLt
  simp only [opField, BitVec.extractLsb'_toNat, Nat.shiftRight_eq_div_pow]
  omega

theorem opdField_toNat (w : ReqWord) : (opdField w).toNat = w.toNat % 256 := rfl

/-- Where the operation's number is known, the word decodes by it and by the operand byte of the operand's number. -/
theorem decode_of_op {w : ReqWord} {op : Byte} (h : w.toNat / 256 = op.toNat) :
    decode w = decodeFields op (BitVec.ofNat 8 (w.toNat % 256)) := by
  have hop : opField w = op := BitVec.eq_of_toNat_eq ((opField_toNat w).trans h)
  rw [decode, hop, ← opdField_toNat, BitVec.ofNat_toNat, BitVec.setWidth_eq]

/-- A word given by its fields decodes by them. -/
theorem decode_reqWord (op opd : Byte) : decode (reqWord op opd) = decodeFields op opd := by
  rw [decode, opField_reqWord, opdField_reqWord]

/-! ## The rows of the operation map (R101, R111) -/

theorem cmdTable_toNat (reg : ClockReg) (rd : Bool) :
    (cmdTable reg rd).toNat = 0x80 + 2 * reg.index.toNat + rd.toNat := by
  cases reg <;> cases rd <;> rfl

theorem encode_writeOf (reg : ClockReg) (d : Byte) : encode (.writeOf reg d) = reqWord (cmdTable reg false) d := by
  cases reg <;> rfl

theorem encode_readOf (reg : ClockReg) : encode (.readOf reg) = reqWord (cmdTable reg true) 0 := by
  cases reg <;> rfl

theorem decodeFields_write (reg : ClockReg) (opd : Byte) :
    decodeFields (cmdTable reg false) opd = some (.writeOf reg opd) := by
  cases reg <;> rfl

theorem decodeFields_read (reg : ClockReg) (opd : Byte) :
    decodeFields (cmdTable reg true) opd = decodeRead opd (.readOf reg) := by
  cases reg <;> rfl

theorem decodeFields_bcdenc (opd : Byte) : decodeFields 0x01 opd = decodeBcdenc opd := rfl
theorem decodeFields_bcddec (opd : Byte) : decodeFields 0x02 opd = some (.bcddec opd) := rfl
theorem decodeFields_addrenc (opd : Byte) : decodeFields 0x03 opd = decodeAddrenc opd := rfl
theorem decodeFields_brev (opd : Byte) : decodeFields 0x04 opd = some (.brev opd) := rfl

/-- The values of `OP` that stand for no operation (R101, R120). -/
def ReservedOp (op : Nat) : Prop := op = 0x00 ∨ (0x05 ≤ op ∧ op ≤ 0x7F) ∨ 0x8E ≤ op

/-- No row of the map has a reserved `OP`: every comparison of the decoder fails. -/
theorem decodeFields_reserved {op : Byte} (h : ReservedOp op.toNat) (opd : Byte) : decodeFields op opd = none := by
  unfold ReservedOp at h
  simp only [decodeFields, ← BitVec.toNat_inj, BitVec.ofNat_eq_ofNat, BitVec.toNat_ofNat]
  repeat rw [if_neg (by omega)]

/-- An index up to 6 is a clock register's (R71). -/
theorem exists_index_of_le {n : Nat} (h : n ≤ 6) : ∃ reg : ClockReg, reg.index.toNat = n := by
  interval_cases n
  exacts [⟨.sec, rfl⟩, ⟨.min, rfl⟩, ⟨.hour, rfl⟩, ⟨.date, rfl⟩, ⟨.month, rfl⟩, ⟨.day, rfl⟩, ⟨.year, rfl⟩]

/-- Bit 0 of a number, as a number again. -/
theorem toNat_lowBit (n : Nat) : (decide (n % 2 = 1)).toNat = n % 2 := by
  rw [← Nat.testBit_zero, Nat.toNat_testBit, Nat.pow_zero, Nat.div_one]

/-- Every `OP` is reserved, one of the four pure operations, or a command byte of the table (R101). -/
theorem op_cases (op : Byte) :
    ReservedOp op.toNat ∨ op = 0x01 ∨ op = 0x02 ∨ op = 0x03 ∨ op = 0x04 ∨ ∃ reg rd, op = cmdTable reg rd := by
  by_cases hcmd : 0x80 ≤ op.toNat ∧ op.toNat ≤ 0x8D
  · obtain ⟨reg, hreg⟩ := exists_index_of_le (n := (op.toNat - 0x80) / 2) (by omega)
    refine .inr (.inr (.inr (.inr (.inr ⟨reg, decide (op.toNat % 2 = 1), ?_⟩))))
    apply BitVec.eq_of_toNat_eq
    rw [cmdTable_toNat, hreg, toNat_lowBit]
    omega
  · simp only [ReservedOp, ← BitVec.toNat_inj, BitVec.ofNat_eq_ofNat, BitVec.toNat_ofNat]
    omega

/-! ## The operands (R102, R120) -/

theorem decodeRead_eq_some {opd : Byte} {i j : Instr} : decodeRead opd i = some j ↔ opd = 0 ∧ i = j := by
  simp [decodeRead]

theorem decodeBcdenc_eq_some {opd : Byte} {i : Instr} :
    decodeBcdenc opd = some i ↔ opd.toNat ≤ 99 ∧ .bcdenc opd = i := by
  simp [decodeBcdenc]

theorem ofIndex_eq_some {j : BitVec 3} {reg : ClockReg} : ClockReg.ofIndex j = some reg ↔ reg.index = j := by
  revert j; cases reg <;> decide

theorem ofIndex_eq_none {j : BitVec 3} : ClockReg.ofIndex j = none ↔ j.toNat = 7 := by
  revert j; decide

theorem addrencOperand_toNat (reg : ClockReg) (rd : Bool) :
    (addrencOperand reg rd).toNat = 2 * reg.index.toNat + rd.toNat := by
  cases reg <;> cases rd <;> rfl

/-- The three fields of an operand byte are its number's digits (R102). -/
theorem addrenc_fields (opd : Byte) :
    (opd.extractLsb' 4 4 = 0 ↔ opd.toNat / 16 = 0) ∧ (opd.extractLsb' 1 3).toNat = opd.toNat / 2 % 8 ∧
      opd.getLsbD 0 = decide (opd.toNat % 2 = 1) := by
  have := opd.isLt
  refine ⟨?_, ?_, by simp [BitVec.getLsbD, Nat.testBit_zero]⟩
  · simp only [← BitVec.toNat_inj, BitVec.extractLsb'_toNat, Nat.shiftRight_eq_div_pow,
      BitVec.ofNat_eq_ofNat, BitVec.toNat_ofNat]
    omega
  · simp only [BitVec.extractLsb'_toNat, Nat.shiftRight_eq_div_pow]

/-- `ADDRENC` names register `reg` exactly where bits 7:4 are zero and bits 3:1 are its index (R102, R103). -/
theorem decodeAddrenc_of_index {opd : Byte} {reg : ClockReg} (hz : opd.toNat / 16 = 0)
    (hi : reg.index.toNat = opd.toNat / 2 % 8) :
    decodeAddrenc opd = some (.addrenc reg (decide (opd.toNat % 2 = 1))) := by
  obtain ⟨hhigh, hmid, hlow⟩ := addrenc_fields opd
  have hreg : ClockReg.ofIndex (opd.extractLsb' 1 3) = some reg :=
    ofIndex_eq_some.mpr (BitVec.eq_of_toNat_eq (hi.trans hmid.symm))
  rw [decodeAddrenc, if_pos (hhigh.mpr hz), hreg, hlow, Option.map_some]

/-- `ADDRENC` is refused with any of bits 7:4 set, and for index 7 (R120). -/
theorem decodeAddrenc_eq_none {opd : Byte} (h : ¬(opd.toNat / 16 = 0 ∧ opd.toNat / 2 % 8 ≤ 6)) :
    decodeAddrenc opd = none := by
  obtain ⟨hhigh, hmid, -⟩ := addrenc_fields opd
  by_cases hz : opd.toNat / 16 = 0
  · have hnone : ClockReg.ofIndex (opd.extractLsb' 1 3) = none := ofIndex_eq_none.mpr (by omega)
    rw [decodeAddrenc, if_pos (hhigh.mpr hz), hnone, Option.map_none]
  · rw [decodeAddrenc, if_neg (mt hhigh.mp hz)]

/-- The operand that `encode` gives a register and a direction is read back as them. -/
theorem decodeAddrenc_addrencOperand (reg : ClockReg) (rd : Bool) :
    decodeAddrenc (addrencOperand reg rd) = some (.addrenc reg rd) := by
  cases reg <;> cases rd <;> rfl

/-- An operand that `ADDRENC` admits is that of the register and direction it is read as. -/
theorem exists_of_decodeAddrenc {opd : Byte} {i : Instr} (h : decodeAddrenc opd = some i) :
    ∃ reg rd, i = .addrenc reg rd ∧ opd = addrencOperand reg rd := by
  by_cases ha : opd.toNat / 16 = 0 ∧ opd.toNat / 2 % 8 ≤ 6
  · obtain ⟨hz, hle⟩ := ha
    obtain ⟨reg, hreg⟩ := exists_index_of_le hle
    refine ⟨reg, _, Option.some.inj (h.symm.trans (decodeAddrenc_of_index hz hreg)), BitVec.eq_of_toNat_eq ?_⟩
    rw [addrencOperand_toNat, hreg, toNat_lowBit]
    omega
  · exact nomatch h.symm.trans (decodeAddrenc_eq_none ha)

/-! ## Encoding and decoding are inverse to each other (R101, R121) -/

/-- A well-formed request decodes from its own word; only `BCDENC` needs that it is well formed. -/
theorem decode_encode {i : Instr} (h : i.wf = true) : decode (encode i) = some i := by
  cases i with
  | bcdenc v =>
    rw [encode, decode_reqWord, decodeFields_bcdenc]
    exact decodeBcdenc_eq_some.mpr ⟨of_decide_eq_true h, rfl⟩
  | addrenc reg rd =>
    rw [encode, decode_reqWord, decodeFields_addrenc]
    exact decodeAddrenc_addrencOperand reg rd
  | _ => exact decode_reqWord _ _ -- a write's, `BCDDEC`'s or `BREV`'s operand is any byte, a read's is 0

/-- Fields that decode are those of the request's own word. -/
theorem encode_of_decodeFields {op opd : Byte} {i : Instr} (h : decodeFields op opd = some i) :
    encode i = reqWord op opd := by
  rcases op_cases op with hop | rfl | rfl | rfl | rfl | ⟨reg, rd, rfl⟩
  · exact nomatch h.symm.trans (decodeFields_reserved hop opd)
  · obtain ⟨-, rfl⟩ := decodeBcdenc_eq_some.mp h
    rfl
  · obtain rfl := Option.some.inj h
    rfl
  · obtain ⟨reg, rd, rfl, rfl⟩ := exists_of_decodeAddrenc h
    rfl
  · obtain rfl := Option.some.inj h
    rfl
  · cases rd with
    | false =>
      obtain rfl := Option.some.inj ((decodeFields_write reg opd).symm.trans h)
      exact encode_writeOf reg opd
    | true =>
      obtain ⟨rfl, rfl⟩ := decodeRead_eq_some.mp ((decodeFields_read reg opd).symm.trans h)
      exact encode_readOf reg

/-- A word that decodes is the word of the request it decodes to (log 10). -/
theorem encode_of_decode {w : ReqWord} {i : Instr} (h : decode w = some i) : encode i = w :=
  (encode_of_decodeFields h).trans (reqWord_fields w)

/-- Settles O1, by the constructors of the request. -/
theorem decodeOfEncodeIsTheRequest : Obligations.DecodeOfEncodeIsTheRequest := fun _ => decode_encode

/-- Settles O2, by the rows of the operation map that the word's `OP` may stand in. -/
theorem decodedRequestReencodes : Obligations.DecodedRequestReencodes :=
  fun _ _ h => ⟨Machine.decode_wf h, encode_of_decode h⟩

/-! ## The decode function R103 in numbers -/

/-- Settles O3: `OP` picks the row of the map, and the row's operand check is R103's. -/
theorem decodeFollowsTheDecodeFunction : Obligations.DecodeFollowsTheDecodeFunction := by
  intro w op opd
  have hlt : opd < 2 ^ 8 := Nat.mod_lt _ (by decide)
  have hopd : (BitVec.ofNat 8 opd).toNat = opd := Nat.mod_eq_of_lt hlt
  refine ⟨fun h => ?_, fun h => ?_, fun h => ⟨fun ⟨hz, hle⟩ => ?_, fun hn => ?_⟩, fun h => ?_, fun reg h => ?_,
    fun reg h => ?_, fun h => ?_⟩
  · rw [decode_of_op (op := 0x01) h, decodeFields_bcdenc, decodeBcdenc, hopd]
  · rw [decode_of_op (op := 0x02) h, decodeFields_bcddec]
  · obtain ⟨reg, hreg⟩ := exists_index_of_le hle
    refine ⟨reg, hreg, ?_⟩
    rw [decode_of_op (op := 0x03) h, decodeFields_addrenc]
    rw [← hopd] at hz hreg ⊢
    exact decodeAddrenc_of_index hz hreg
  · rw [decode_of_op (op := 0x03) h, decodeFields_addrenc]
    rw [← hopd] at hn
    exact decodeAddrenc_eq_none hn
  · rw [decode_of_op (op := 0x04) h, decodeFields_brev]
  · rw [decode_of_op (h.trans (cmdTable_toNat reg false).symm), decodeFields_write]
  · have hop : op = (cmdTable reg true).toNat := by rw [cmdTable_toNat, h, Bool.toNat_true]; omega
    have hzero : BitVec.ofNat 8 opd = 0 ↔ opd = 0 := by rw [← BitVec.toNat_inj, hopd]; rfl
    rw [decode_of_op hop, decodeFields_read, decodeRead]
    exact if_congr hzero rfl rfl
  · have hop : w.toNat / 256 = (opField w).toNat := (opField_toNat w).symm
    rw [decode_of_op hop]
    exact decodeFields_reserved (hop ▸ h) _

/-- Settles O5, by running the decoder on the twelve words. -/
theorem tabledWordsDecode : Obligations.TabledWordsDecode := by
  unfold Obligations.TabledWordsDecode
  decide

/-! ## Refused words -/

/-- The words of R120's list. -/
def ListedRefused (w : ReqWord) : Prop :=
  ReservedOp (w.toNat / 256) ∨
  (0x81 ≤ w.toNat / 256 ∧ w.toNat / 256 ≤ 0x8D ∧ w.toNat / 256 % 2 = 1 ∧ w.toNat % 256 ≠ 0) ∨
  (w.toNat / 256 = 0x01 ∧ 99 < w.toNat % 256) ∨
  (w.toNat / 256 = 0x03 ∧ (w.toNat % 256 / 16 ≠ 0 ∨ w.toNat % 256 / 2 % 8 = 7))

/-- R120's list is refused by R103's decode function. -/
theorem decode_eq_none_of_listed {w : ReqWord} (h : ListedRefused w) : decode w = none := by
  obtain ⟨hbcdenc, -, haddrenc, -, -, hread, hreserved⟩ := decodeFollowsTheDecodeFunction w
  rcases h with hop | ⟨hlo, hhi, hodd, hopd⟩ | ⟨hop, hopd⟩ | ⟨hop, hopd⟩
  · exact hreserved hop
  · obtain ⟨reg, hreg⟩ := exists_index_of_le (n := (w.toNat / 256 - 0x81) / 2) (by omega)
    exact (hread reg (by omega)).trans (if_neg hopd)
  · exact (hbcdenc hop).trans (if_neg (by omega))
  · exact (haddrenc hop).2 (by omega)

namespace Machine

/-- A ready cycle that is shown a word that decodes to no request refuses it (R310). -/
theorem step_of_decode_eq_none {s : State} {w : ReqWord} (hi : s.mode = .idle) (hr : s.resetNow = false)
    (hq : s.reqShown = some w) (hd : decode w = none) : step s = .next (s.tick.takeRequest.2.refuse w) := by
  rcases step_cases s with ⟨ht, -⟩ | ⟨-, -, hn, -⟩ | ⟨-, -, v, hv, ⟨j, hj, -⟩ | ⟨-, he⟩⟩ | ⟨-, hb, -⟩ | ⟨-, hb, -⟩ | ⟨-, hb, -⟩
  · exact nomatch hr.symm.trans ht
  · exact nomatch hn.symm.trans hq
  · obtain rfl := Option.some.inj (hv.symm.trans hq)
    exact nomatch hj.symm.trans hd
  · obtain rfl := Option.some.inj (hv.symm.trans hq)
    exact he
  all_goals exact nomatch hi.symm.trans hb

/-- What `refuse` leaves of a state, whose inputs have moved on (R310): each field by its lemma. -/
theorem refusedWith_refuse (s : State) (w : ReqWord) : RefusedWith s (s.tick.takeRequest.2.refuse w) w := by
  constructor
  case lines => constructor <;> simp
  case sequencer => exact ⟨by constructor <;> simp, by simp, by simp, by simp⟩
  all_goals simp

/-- Settles O4: a listed word decodes to no request, so the ready cycle refuses it. -/
theorem listedWordsAreRefusedWithoutBusActivity : Obligations.ListedWordsAreRefusedWithoutBusActivity := by
  intro s w hi hr hq hlisted
  refine ⟨_, step_of_decode_eq_none hi hr hq (decode_eq_none_of_listed hlisted), refusedWith_refuse s w, ?_⟩
  simp

end Machine

end Sys2Proof
end

section
/-! PROOFS. Every form of request text assembles to its word (30_encoding.md R122, R123; log 20): the digits, the tokens of a
line, the literals, then one lemma per shape of line. -/

namespace Sys2Proof.Machine

/-! ## Digits (R122) -/

/-- The value of one digit. -/
theorem valueOf_singleton (base : Nat) (c : Char) :
    valueOf base [c] = (digitOf c).bind fun d => if d < base then some d else none := by
  cases h : digitOf c <;> simp [valueOf, h]

/-- One more digit multiplies the value before it by the base. -/
theorem valueOf_concat (base : Nat) {ds : List Char} (hne : ds ≠ []) (c : Char) :
    valueOf base (ds ++ [c]) =
      (valueOf base ds).bind fun n => (digitOf c).bind fun d => if d < base then some (n * base + d) else none := by
  have hempty : ds.isEmpty = false := by simpa using hne
  have hconcat : (ds ++ [c]).isEmpty = false := by simp
  rw [valueOf, valueOf, hempty, hconcat, List.foldl_append]
  generalize List.foldl _ (some 0) ds = acc
  cases acc <;> cases h : digitOf c <;> simp [h]

/-- What has a value consists of digits. -/
theorem digitOf_isSome_of_valueOf {base n : Nat} {ds : List Char} (h : valueOf base ds = some n) :
    ∀ c ∈ ds, (digitOf c).isSome = true := by
  induction ds using List.reverseRecOn generalizing n with
  | nil => simp
  | append_singleton ds c ih =>
    rcases eq_or_ne ds [] with rfl | hne
    · rw [List.nil_append, valueOf_singleton] at h
      obtain ⟨d, hd, -⟩ := Option.bind_eq_some_iff.mp h
      simp [hd]
    · rw [valueOf_concat base hne] at h
      obtain ⟨m, hm, h⟩ := Option.bind_eq_some_iff.mp h
      obtain ⟨d, hd, -⟩ := Option.bind_eq_some_iff.mp h
      intro e he
      rcases List.mem_append.mp he with he | he
      · exact ih hm e he
      · simp [List.mem_singleton.mp he, hd]

/-- A digit character has its value in every base the literals use. -/
theorem digitOf_digitChar {d : Nat} (h : d < 16) : digitOf (Nat.digitChar d) = some d := by
  interval_cases d <;> rfl

/-- Digits written in a base have their value in it. -/
theorem valueOf_map_digitChar {base : Nat} (hb : base ≤ 16) {ds : List Nat} (hne : ds ≠ []) (hds : ∀ d ∈ ds, d < base) :
    valueOf base (ds.map Nat.digitChar) = some (ds.foldl (fun n d => n * base + d) 0) := by
  induction ds using List.reverseRecOn with
  | nil => exact absurd rfl hne
  | append_singleton ds d ih =>
    have hd : d < base := hds d (by simp)
    have hdigit := digitOf_digitChar (hd.trans_le hb)
    rw [List.map_append, List.foldl_append]
    rcases eq_or_ne ds [] with rfl | hcons
    · simp [valueOf_singleton, hdigit, hd]
    · have hvalue := ih hcons fun e he => hds e (by simp [he])
      simp [valueOf_concat, hcons, hvalue, hdigit, hd]

/-- A number written in a base has its value in it. -/
theorem valueOf_toDigits {base : Nat} (h1 : 1 < base) (hb : base ≤ 16) (n : Nat) :
    valueOf base (Nat.toDigits base n) = some n := by
  induction n using Nat.strongRecOn with
  | ind n ih =>
    rw [Nat.toDigits_eq_if h1]
    split
    · next hlt => simp [valueOf_singleton, digitOf_digitChar (hlt.trans_le hb), hlt]
    · have hmod : n % base < base := Nat.mod_lt _ (by omega)
      have hvalue := ih (n / base) (Nat.div_lt_self (by omega) h1)
      rw [valueOf_concat base Nat.toDigits_ne_nil, hvalue, digitOf_digitChar (hmod.trans_le hb), Option.bind_some,
        Option.bind_some, if_pos hmod, Nat.div_add_mod']

/-! ## Tokens (R122) -/

/-- A character that neither separates tokens nor starts a comment. -/
def TokenChar (c : Char) : Prop := c ≠ ';' ∧ c ≠ ',' ∧ c ≠ ' ' ∧ c ≠ '\t'

/-- A text that is one token of a line. -/
def IsToken (t : List Char) : Prop := t ≠ [] ∧ ∀ c ∈ t, TokenChar c

theorem IsToken.append {t u : List Char} (ht : IsToken t) (hu : IsToken u) : IsToken (t ++ u) :=
  ⟨by simp [ht.1], fun c hc => (List.mem_append.mp hc).elim (ht.2 c) (hu.2 c)⟩

theorem tokenChar_of_digitOf {c : Char} (h : (digitOf c).isSome = true) : TokenChar c := by
  refine ⟨?_, ?_, ?_, ?_⟩ <;> (rintro rfl; revert h; decide)

theorem isToken_of_valueOf {base n : Nat} {ds : List Char} (h : valueOf base ds = some n) : IsToken ds :=
  ⟨by rintro rfl; exact (nomatch h), fun c hc => tokenChar_of_digitOf (digitOf_isSome_of_valueOf h c hc)⟩

/-- The characters of a token gather in the token being read. -/
theorem tokensOf_append (word t rest : List Char) (h : ∀ c ∈ t, TokenChar c) :
    tokensOf word (t ++ rest) = tokensOf (t.reverse ++ word) rest := by
  induction t generalizing word with
  | nil => rfl
  | cons c t ih =>
    obtain ⟨⟨hsemi, hcomma, hspace, htab⟩, ht⟩ := List.forall_mem_cons.mp h
    simp [tokensOf, hsemi, hcomma, hspace, htab, ih _ ht]

theorem tokensOf_token {t : List Char} (h : IsToken t) : tokensOf [] t = [t] := by
  have := tokensOf_append [] t [] h.2
  simpa [tokensOf, h.1] using this

theorem tokensOf_token_space {t : List Char} (h : IsToken t) (rest : List Char) :
    tokensOf [] (t ++ ' ' :: rest) = t :: tokensOf [] rest := by
  rw [tokensOf_append [] t _ h.2]
  simp [tokensOf, h.1]

theorem tokensOf_token_comma {t : List Char} (h : IsToken t) (rest : List Char) :
    tokensOf [] (t ++ ',' :: ' ' :: rest) = t :: [','] :: tokensOf [] rest := by
  rw [tokensOf_append [] t _ h.2]
  simp [tokensOf, h.1]

/-- A comment ends the token before it as the end of the line does. -/
theorem tokensOf_comment (word line comment : List Char) :
    tokensOf word (line ++ ';' :: comment) = tokensOf word line := by
  induction line generalizing word with
  | nil => simp [tokensOf]
  | cons c line ih => simp only [List.cons_append, tokensOf, ih]

/-! ## Literals (R122) -/

theorem literalOf_hex (bits : Nat) (ds : List Char) :
    literalOf bits ('0' :: 'x' :: ds) = (valueOf 16 ds).filter (· < 2 ^ bits) := rfl

theorem literalOf_bin (bits : Nat) (ds : List Char) :
    literalOf bits ('0' :: 'b' :: ds) =
      (if (ds.filter (· != '_')).length ≤ bits then valueOf 2 (ds.filter (· != '_')) else none).filter (· < 2 ^ bits) := rfl

/-- A text that starts with neither `0x` nor `0b` is read in decimal. -/
theorem literalOf_dec (bits : Nat) {t : List Char} (hx : ∀ ds, t ≠ '0' :: 'x' :: ds) (hb : ∀ ds, t ≠ '0' :: 'b' :: ds) :
    literalOf bits t = (valueOf 10 t).filter (· < 2 ^ bits) := by
  unfold literalOf
  split
  · exact absurd rfl (hx _)
  · exact absurd rfl (hb _)
  · rfl

/-- A literal is one token. -/
theorem isToken_of_literalOf {bits n : Nat} {t : List Char} (h : literalOf bits t = some n) : IsToken t := by
  unfold literalOf at h
  replace h := (Option.filter_eq_some_iff.mp h).1
  dsimp only at h
  split at h
  · exact IsToken.append (t := ['0', 'x']) (by simp [IsToken, TokenChar]) (isToken_of_valueOf h)
  · next ds =>
    split at h
    · obtain ⟨hne, hall⟩ := isToken_of_valueOf h
      have hds : IsToken ds := by
        refine ⟨by rintro rfl; exact hne rfl, fun c hc => ?_⟩
        by_cases hu : c = '_'
        · subst hu; simp [TokenChar]
        · exact hall c (List.mem_filter.mpr ⟨hc, by simpa using hu⟩)
      exact IsToken.append (t := ['0', 'b']) (by simp [IsToken, TokenChar]) hds
    · exact nomatch h
  · exact isToken_of_valueOf h

theorem isToken_of_imm8Of {x : List Char} {v : Byte} (h : imm8Of x = some v) : IsToken x := by
  obtain ⟨n, hn, -⟩ := Option.map_eq_some_iff.mp h
  exact isToken_of_literalOf hn

/-- A decimal literal has its value where it is in range. -/
theorem literalOf_toDigits (bits n : Nat) :
    literalOf bits (Nat.toDigits 10 n) = if n < 2 ^ bits then some n else none := by
  have hdigit : ∀ {c : Char} {a ds}, Nat.toDigits 10 n = a :: c :: ds → c.isDigit = true := fun {c _ _} h =>
    Nat.isDigit_of_mem_toDigits (b := 10) (n := n) (by decide) (by decide) (by simp [h])
  rw [literalOf_dec bits (fun _ h => nomatch hdigit h) (fun _ h => nomatch hdigit h), valueOf_toDigits (by decide) (by decide)]
  simp [Option.filter_some]

/-- A hexadecimal literal has the value of its digits where it is in range. -/
theorem literalOf_hexDigits (bits : Nat) {ds : List Nat} (hne : ds ≠ []) (hds : ∀ d ∈ ds, d < 16)
    (hlt : ds.foldl (fun n d => n * 16 + d) 0 < 2 ^ bits) :
    literalOf bits ('0' :: 'x' :: ds.map Nat.digitChar) = some (ds.foldl (fun n d => n * 16 + d) 0) := by
  rw [literalOf_hex, valueOf_map_digitChar (by decide) hne hds]
  simp [Option.filter_some, hlt]

/-- The number that bits stand for, the first one the highest. -/
abbrev natOfBits (bits : List Bool) : Nat := bits.foldl (fun n b => 2 * n + b.toNat) 0

theorem natOfBits_lt (bits : List Bool) : natOfBits bits < 2 ^ bits.length := by
  induction bits using List.reverseRecOn with
  | nil => decide
  | append_singleton bits b ih =>
    have hb := b.toNat_lt
    simp only [natOfBits, List.foldl_append, List.foldl_cons, List.foldl_nil, List.length_append, List.length_singleton,
      Nat.pow_succ] at ih ⊢
    omega

/-- A binary literal of bits that fit has their value. -/
theorem literalOf_bits (width : Nat) {bits : List Bool} (hne : bits ≠ []) (hlen : bits.length ≤ width) :
    literalOf width ('0' :: 'b' :: bits.map fun b => if b then '1' else '0') = some (natOfBits bits) := by
  have hchar : (fun b : Bool => if b then '1' else '0') = Nat.digitChar ∘ Bool.toNat := by
    funext b; cases b <;> rfl
  have hfilter : (bits.map (Nat.digitChar ∘ Bool.toNat)).filter (· != '_') = (bits.map Bool.toNat).map Nat.digitChar := by
    rw [List.map_map, List.filter_eq_self]
    intro c hc
    obtain ⟨b, -, rfl⟩ := List.mem_map.mp hc
    cases b <;> rfl
  have hvalue : valueOf 2 ((bits.map Bool.toNat).map Nat.digitChar) = some (natOfBits bits) := by
    have hlt : ∀ d ∈ bits.map Bool.toNat, d < 2 := List.forall_mem_map.mpr fun b _ => b.toNat_lt
    rw [valueOf_map_digitChar (by decide) (by simpa using hne) hlt, List.foldl_map]
    simp only [natOfBits, Nat.mul_comm]
  have hlt : natOfBits bits < 2 ^ width := (natOfBits_lt bits).trans_le (Nat.pow_le_pow_right (by decide) hlen)
  rw [hchar, literalOf_bin, hfilter, hvalue]
  simp [hlen, hlt, Option.filter_some]

/-- `_` changes nothing in a binary literal (log 20). -/
theorem literalOf_bin_filter (bits : Nat) (ds : List Char) :
    literalOf bits ('0' :: 'b' :: ds.filter (· != '_')) = literalOf bits ('0' :: 'b' :: ds) := by
  simp [literalOf_bin]

/-! ## Lines (R122, R123) -/

theorem isToken_text (reg : ClockReg) : IsToken (ClockReg.text reg) := by
  cases reg <;> simp [IsToken, TokenChar, ClockReg.text]

@[simp] theorem regOfText_text (reg : ClockReg) : regOfText (ClockReg.text reg) = some reg := by
  cases reg <;> rfl

theorem assembleLine_one {m : List Char} (hm : IsToken m) : assembleLine m = (parseOne m).bind AsmLine.assemble := by
  simp only [assembleLine, parseLine, tokensOf_token hm]
  cases parseOne m <;> rfl

theorem assembleLine_two {m x : List Char} (hm : IsToken m) (hx : IsToken x) :
    assembleLine (m ++ ' ' :: x) = (parseTwo m x).bind AsmLine.assemble := by
  simp only [assembleLine, parseLine, tokensOf_token_space hm, tokensOf_token hx]
  cases parseTwo m x <;> rfl

theorem assembleLine_three {m x y : List Char} (hm : IsToken m) (hx : IsToken x) (hy : IsToken y) :
    assembleLine (m ++ ' ' :: (x ++ ',' :: ' ' :: y)) = (parseThree m x y).bind AsmLine.assemble := by
  simp only [assembleLine, parseLine, tokensOf_token_space hm, tokensOf_token_comma hx, tokensOf_token hy]
  cases parseThree m x y <;> rfl

/-- A comment changes no line. -/
theorem parseLine_comment (line comment : List Char) : parseLine (line ++ ';' :: comment) = parseLine line := by
  rw [parseLine, tokensOf_comment, parseLine]

/-! ## Words of requests, as numbers (R101, R102) -/

theorem reqWord_eq_ofNat (op opd : Byte) : reqWord op opd = BitVec.ofNat 16 (op.toNat * 256 + opd.toNat) := by
  have hop := op.isLt
  have hopd := opd.isLt
  apply BitVec.eq_of_toNat_eq
  rw [reqWord, BitVec.toNat_append, ← Nat.shiftLeft_add_eq_or_of_lt hopd, Nat.shiftLeft_eq, BitVec.toNat_ofNat]
  omega

theorem assemble_readOf (reg : ClockReg) :
    (AsmLine.request (.readOf reg)).assemble = some (BitVec.ofNat 16 ((0x81 + 2 * reg.index.toNat) * 256)) := by
  cases reg <;> rfl

theorem assemble_writeOf (reg : ClockReg) (d : Byte) :
    (AsmLine.request (.writeOf reg d)).assemble =
      some (BitVec.ofNat 16 ((0x80 + 2 * reg.index.toNat) * 256 + d.toNat)) := by
  have hwf : (Instr.writeOf reg d).wf = true := by cases reg <;> rfl
  rw [AsmLine.assemble, if_pos hwf, encode_writeOf, reqWord_eq_ofNat, cmdTable_toNat]
  rfl

theorem assemble_addrenc (reg : ClockReg) (rd : Bool) :
    (AsmLine.request (.addrenc reg rd)).assemble = some (BitVec.ofNat 16 (0x0300 + 2 * reg.index.toNat + rd.toNat)) := by
  cases reg <;> cases rd <;> rfl

theorem assemble_bcdenc (v : Byte) :
    (AsmLine.request (.bcdenc v)).assemble = if v.toNat ≤ 99 then some (BitVec.ofNat 16 (0x0100 + v.toNat)) else none := by
  simp [AsmLine.assemble, Instr.wf, encode, reqWord_eq_ofNat]

theorem assemble_bcddec (v : Byte) :
    (AsmLine.request (.bcddec v)).assemble = some (BitVec.ofNat 16 (0x0200 + v.toNat)) :=
  congrArg some (reqWord_eq_ofNat 0x02 v)

theorem assemble_brev (v : Byte) : (AsmLine.request (.brev v)).assemble = some (BitVec.ofNat 16 (0x0400 + v.toNat)) :=
  congrArg some (reqWord_eq_ofNat 0x04 v)

/-! ## The forms of request text (R122, R123) -/

section
variable (reg : ClockReg)

theorem assembleLine_rd_reg :
    assembleLine (['R', 'D', '_'] ++ ClockReg.text reg) =
      some (BitVec.ofNat 16 ((0x81 + 2 * reg.index.toNat) * 256)) := by
  have hm : IsToken ['R', 'D', '_'] := by simp [IsToken, TokenChar]
  rw [assembleLine_one (hm.append (isToken_text reg))]
  simp [parseOne, assemble_readOf]

theorem assembleLine_rd :
    assembleLine (['R', 'D', ' '] ++ ClockReg.text reg) =
      some (BitVec.ofNat 16 ((0x81 + 2 * reg.index.toNat) * 256)) := by
  have hm : IsToken ['R', 'D'] := by simp [IsToken, TokenChar]
  refine (assembleLine_two hm (isToken_text reg)).trans ?_
  simp [parseTwo, assemble_readOf]

theorem assembleLine_addrenc (rd : Bool) :
    assembleLine (['A', 'D', 'D', 'R', 'E', 'N', 'C', ' '] ++ ClockReg.text reg ++ [',', ' ', if rd then 'R' else 'W']) =
      some (BitVec.ofNat 16 (0x0300 + 2 * reg.index.toNat + rd.toNat)) := by
  have hm : IsToken ['A', 'D', 'D', 'R', 'E', 'N', 'C'] := by simp [IsToken, TokenChar]
  have hy : IsToken [if rd then 'R' else 'W'] := by cases rd <;> simp [IsToken, TokenChar]
  have hdir : directionOf [if rd then 'R' else 'W'] = some rd := by cases rd <;> rfl
  rw [List.append_assoc]
  refine (assembleLine_three hm (isToken_text reg) hy).trans ?_
  simp [parseThree, hdir, assemble_addrenc]

variable {x : List Char} {v : Byte} (hv : imm8Of x = some v)
include hv

theorem assembleLine_wr_reg :
    assembleLine (['W', 'R', '_'] ++ ClockReg.text reg ++ [' '] ++ x) =
      some (BitVec.ofNat 16 ((0x80 + 2 * reg.index.toNat) * 256 + v.toNat)) := by
  have hm : IsToken ['W', 'R', '_'] := by simp [IsToken, TokenChar]
  rw [List.append_assoc]
  refine (assembleLine_two (hm.append (isToken_text reg)) (isToken_of_imm8Of hv)).trans ?_
  simp [parseTwo, hv, assemble_writeOf]

theorem assembleLine_wr :
    assembleLine (['W', 'R', ' '] ++ ClockReg.text reg ++ [',', ' '] ++ x) =
      some (BitVec.ofNat 16 ((0x80 + 2 * reg.index.toNat) * 256 + v.toNat)) := by
  have hm : IsToken ['W', 'R'] := by simp [IsToken, TokenChar]
  rw [List.append_assoc, List.append_assoc]
  refine (assembleLine_three hm (isToken_text reg) (isToken_of_imm8Of hv)).trans ?_
  simp [parseThree, hv, assemble_writeOf]

theorem assembleLine_bcdenc :
    assembleLine (['B', 'C', 'D', 'E', 'N', 'C', ' '] ++ x) =
      if v.toNat ≤ 99 then some (BitVec.ofNat 16 (0x0100 + v.toNat)) else none := by
  have hm : IsToken ['B', 'C', 'D', 'E', 'N', 'C'] := by simp [IsToken, TokenChar]
  refine (assembleLine_two hm (isToken_of_imm8Of hv)).trans ?_
  simp [parseTwo, hv, assemble_bcdenc]

theorem assembleLine_bcddec :
    assembleLine (['B', 'C', 'D', 'D', 'E', 'C', ' '] ++ x) = some (BitVec.ofNat 16 (0x0200 + v.toNat)) := by
  have hm : IsToken ['B', 'C', 'D', 'D', 'E', 'C'] := by simp [IsToken, TokenChar]
  refine (assembleLine_two hm (isToken_of_imm8Of hv)).trans ?_
  simp [parseTwo, hv, assemble_bcddec]

theorem assembleLine_brev :
    assembleLine (['B', 'R', 'E', 'V', ' '] ++ x) = some (BitVec.ofNat 16 (0x0400 + v.toNat)) := by
  have hm : IsToken ['B', 'R', 'E', 'V'] := by simp [IsToken, TokenChar]
  refine (assembleLine_two hm (isToken_of_imm8Of hv)).trans ?_
  simp [parseTwo, hv, assemble_brev]

end

theorem assembleLine_word {x : List Char} {n : Nat} (hn : literalOf 16 x = some n) :
    assembleLine (['.', 'w', 'o', 'r', 'd', ' '] ++ x) = some (BitVec.ofNat 16 n) := by
  have hm : IsToken ['.', 'w', 'o', 'r', 'd'] := by simp [IsToken, TokenChar]
  refine (assembleLine_two hm (isToken_of_literalOf hn)).trans ?_
  simp [parseTwo, hn, AsmLine.assemble]

/-- Settles O60: the requests by the shapes of their lines, the literals by the values of their digits. -/
theorem requestTextAssembles : Obligations.RequestTextAssembles := by
  refine ⟨fun reg => ⟨assembleLine_rd_reg reg, assembleLine_rd reg, assembleLine_addrenc reg⟩,
    fun x v hv => ⟨fun reg => ⟨assembleLine_wr_reg reg hv, assembleLine_wr reg hv⟩, assembleLine_bcdenc hv,
      assembleLine_bcddec hv, assembleLine_brev hv⟩,
    fun x n hn => assembleLine_word hn, fun n hn => ?_, fun n hn _ => ?_, fun a b ha hb => ?_,
    fun a b c d ha hb hc hd => ?_, fun bits hne hlen => ?_, fun ds => ?_, parseLine_comment⟩
  · rw [imm8Of, literalOf_toDigits, if_pos (show n < 2 ^ 8 from hn), Option.map_some]
  · rw [imm8Of, literalOf_toDigits, if_neg (show ¬ n < 2 ^ 8 from Nat.not_lt.mpr hn), Option.map_none]
  · have hvalue : [a, b].foldl (fun n d => n * 16 + d) 0 = 16 * a + b := by simp only [List.foldl]; omega
    have h := literalOf_hexDigits 8 (ds := [a, b]) (by simp) (by simp [*]) (by omega)
    exact congrArg (Option.map (BitVec.ofNat 8)) (h.trans (congrArg some hvalue))
  · have hvalue : [a, b, c, d].foldl (fun n d => n * 16 + d) 0 = 4096 * a + 256 * b + 16 * c + d := by
      simp only [List.foldl]; omega
    have h := literalOf_hexDigits 16 (ds := [a, b, c, d]) (by simp) (by simp [*]) (by omega)
    exact h.trans (congrArg some hvalue)
  · rw [imm8Of, literalOf_bits 8 hne hlen, Option.map_some]
  · rw [imm8Of, imm8Of, literalOf_bin_filter]

end Sys2Proof.Machine
end

section
/-! PROOFS. Where the parts of a script stand, and the times between them: the positions of R155 and R156, the durations of R170,
the separations of R166 and the counts of R141 (40_bus_engine.md). -/

namespace Sys2Proof.Machine

/-! ## Where a list of micro-ops stands in a script -/

/-- The micro-ops `w` stand in `ops` from position `p` on. -/
def HasAt (ops : List MicroOp) (p : Nat) (w : List MicroOp) : Prop := ∃ rest, ops.drop p = w ++ rest

/-- A part stands behind the micro-ops before it. -/
theorem hasAt_append (pre w post : List MicroOp) : HasAt (pre ++ w ++ post) pre.length w :=
  ⟨post, by rw [List.append_assoc, List.drop_left]⟩

/-- What stands in a part stands in the whole. -/
theorem HasAt.trans {ops w v : List MicroOp} {p q : Nat} (h : HasAt ops p w) (hv : HasAt w q v) : HasAt ops (p + q) v := by
  obtain ⟨rest, hr⟩ := h
  obtain ⟨rest', hr'⟩ := hv
  exact ⟨rest' ++ rest.drop (q - w.length), by rw [← List.drop_drop, hr, List.drop_append, hr', List.append_assoc]⟩

/-- Two parts that stand one after the other are one part. -/
theorem HasAt.append {ops w v : List MicroOp} {p : Nat} (h : HasAt ops p w) (hv : HasAt ops (p + w.length) v) :
    HasAt ops p (w ++ v) := by
  obtain ⟨rest, hr⟩ := h
  obtain ⟨rest', hr'⟩ := hv
  rw [← List.drop_drop, hr, List.drop_left] at hr'
  exact ⟨rest', by rw [hr, hr', List.append_assoc]⟩

/-- The part is what the script holds from there on, for the part's length. -/
theorem HasAt.take_drop {ops w : List MicroOp} {p : Nat} (h : HasAt ops p w) : (ops.drop p).take w.length = w := by
  obtain ⟨rest, hr⟩ := h
  rw [hr, List.take_left]

/-- The micro-op at an offset in the part, in the whole script. -/
theorem HasAt.getElem? {ops w : List MicroOp} {p j : Nat} {op : MicroOp} (h : HasAt ops p w) (hj : w[j]? = some op) :
    ops[p + j]? = some op := by
  obtain ⟨rest, hr⟩ := h
  have hlt : j < w.length := (List.getElem?_eq_some_iff.mp hj).1
  rw [← List.getElem?_drop, hr, List.getElem?_append_left hlt, hj]

/-! ## The cells of a byte -/

/-- In a list of cells of `m` micro-ops each, cell `i` stands at `m * i`. -/
theorem hasAt_flatMap {α : Type} {f : α → List MicroOp} {m : Nat} (hf : ∀ a, (f a).length = m) :
    ∀ {l : List α} {i : Nat} {a : α}, l[i]? = some a → HasAt (l.flatMap f) (m * i) (f a)
  | [], _, _, h => by simp at h
  | b :: l, 0, a, h => by
    obtain rfl : b = a := by simpa using h
    exact ⟨l.flatMap f, rfl⟩
  | b :: l, i + 1, a, h => by
    have hl : HasAt (l.flatMap f) (m * i) (f a) := hasAt_flatMap hf (by simpa using h)
    have hd : ((b :: l).flatMap f).drop m = l.flatMap f := by simp [← hf b]
    rw [HasAt, Nat.mul_succ, Nat.add_comm, ← List.drop_drop, hd]
    exact hl

/-- Bit position `i` is the `i`-th (R149, R151). -/
theorem bitPositions_getElem? (i : Fin 8) : bitPositions[i.val]? = some i := by
  revert i; decide

/-- The cell of bit `i` in a written byte (R149). -/
theorem hasAt_wbyte (o : BitOrder) (x : Byte) {i : Nat} (hi : i < 8) : HasAt (wbyte o x) (6 * i) (wbit (x.getLsbD i)) := by
  rw [wbyte_eq]
  exact hasAt_flatMap (f := fun k => wbit (bitOf x k)) (fun _ => rfl) (bitPositions_getElem? ⟨i, hi⟩)

/-- The cell of bit `i` in the read byte (R151). -/
theorem hasAt_rbyte (i : Fin 8) : HasAt rbyte (5 * i.val) (rbit i) :=
  hasAt_flatMap (f := rbit) (fun _ => rfl) (bitPositions_getElem? i)

/-! ## The parts of a script -/

@[simp] theorem fixup_length (fix : Bool) : (fixup fix).length = fix.toNat := by cases fix <;> rfl
@[simp] theorem prologue_length : prologue.length = 3 := rfl
@[simp] theorem epilogue_length : epilogue.length = 3 := rfl

/-- Both kinds of script begin alike (R147, R146, R149): after the fix-up the prologue, then the command byte's cells. -/
structure OpensWith (ops : List MicroOp) (fix : Bool) (c : Byte) : Prop where
  atFixup    : HasAt ops 0 (fixup fix)
  atPrologue : HasAt ops fix.toNat prologue
  atCommand  : ∀ i, i < 8 → HasAt ops (fix.toNat + 3 + 6 * i) (wbit (c.getLsbD i))

/-- What begins with the fix-up, the prologue and a written byte opens with them. -/
theorem opensWith_append (fix : Bool) (o : BitOrder) (c : Byte) (rest : List MicroOp) :
    OpensWith (fixup fix ++ prologue ++ wbyte o c ++ rest) fix c where
  atFixup := by simpa using hasAt_append [] (fixup fix) (prologue ++ wbyte o c ++ rest)
  atPrologue := by simpa using hasAt_append (fixup fix) prologue (wbyte o c ++ rest)
  atCommand i hi := by
    have h := hasAt_append (fixup fix ++ prologue) (wbyte o c) rest
    simp only [List.length_append, fixup_length, prologue_length] at h
    exact h.trans (hasAt_wbyte o c hi)

/-- The opening of a write (R155). -/
theorem opensWith_writeScript (o : BitOrder) (c d : Byte) (fix : Bool) : OpensWith (writeScript o c d fix) fix c := by
  simpa [writeScript] using opensWith_append fix o c (wbyte o d ++ epilogue)

/-- The opening of a read (R156). -/
theorem opensWith_readScript (w : Wiring) (o : BitOrder) (c : Byte) (fix : Bool) :
    OpensWith (readScript w o c fix) fix c := by
  simpa [readScript] using opensWith_append fix o c (turnIn w ++ rbyte ++ turnOut w ++ epilogue)

/-- The data byte's cells of a write (R155). -/
theorem hasAt_writeScript_data (o : BitOrder) (c d : Byte) (fix : Bool) {i : Nat} (hi : i < 8) :
    HasAt (writeScript o c d fix) (fix.toNat + 51 + 6 * i) (wbit (d.getLsbD i)) := by
  have h := hasAt_append (fixup fix ++ prologue ++ wbyte o c) (wbyte o d) epilogue
  simp only [List.length_append, fixup_length, prologue_length, wbyte_length] at h
  exact h.trans (hasAt_wbyte o d hi)

/-- The epilogue of a write (R155). -/
theorem hasAt_writeScript_epilogue (o : BitOrder) (c d : Byte) (fix : Bool) :
    HasAt (writeScript o c d fix) (fix.toNat + 99) epilogue := by
  simpa [writeScript] using hasAt_append (fixup fix ++ prologue ++ wbyte o c ++ wbyte o d) epilogue []

/-- The turnaround of a read follows the command byte (R156). -/
theorem hasAt_readScript_turnIn (w : Wiring) (o : BitOrder) (c : Byte) (fix : Bool) :
    HasAt (readScript w o c fix) (fix.toNat + 51) (turnIn w) := by
  simpa [readScript] using hasAt_append (fixup fix ++ prologue ++ wbyte o c) (turnIn w) (rbyte ++ turnOut w ++ epilogue)

/-- The cells of the read byte follow the turnaround (R156). -/
theorem hasAt_readScript_data (w : Wiring) (o : BitOrder) (c : Byte) (fix : Bool) (i : Fin 8) :
    HasAt (readScript w o c fix) (fix.toNat + 51 + (turnIn w).length + 5 * i.val) (rbit i) := by
  have h := hasAt_append (fixup fix ++ prologue ++ wbyte o c ++ turnIn w) rbyte (turnOut w ++ epilogue)
  simp only [List.length_append, fixup_length, prologue_length, wbyte_length] at h
  simpa [readScript] using h.trans (hasAt_rbyte i)

/-- The turn back to output and the epilogue end a read (R156). -/
theorem hasAt_readScript_end (w : Wiring) (o : BitOrder) (c : Byte) (fix : Bool) :
    HasAt (readScript w o c fix) (fix.toNat + 51 + (turnIn w).length + 40) (turnOut w ++ epilogue) := by
  have h := hasAt_append (fixup fix ++ prologue ++ wbyte o c ++ turnIn w ++ rbyte) (turnOut w ++ epilogue) []
  simp only [List.length_append, fixup_length, prologue_length, wbyte_length, rbyte_length] at h
  simpa [readScript] using h

/-! ## The positions of R155 and R156 -/

/-- Settles O27: each part of the script stands where the lengths of the parts before it put it. -/
theorem writeScriptPositions : Obligations.WriteScriptPositions := by
  intro o c d fix
  have hopen := opensWith_writeScript o c d fix
  have hend := hasAt_writeScript_epilogue o c d fix
  refine ⟨?_, fun hf => ?_, hopen.atPrologue.getElem? (j := 0) rfl, hopen.atPrologue.getElem? (j := 1) rfl,
    hopen.atPrologue.getElem? (j := 2) rfl, fun i hi => (hopen.atCommand i hi).take_drop,
    fun i hi => (hasAt_writeScript_data o c d fix hi).take_drop,
    hend.getElem? (j := 0) rfl, hend.getElem? (j := 1) rfl, hend.getElem? (j := 2) rfl⟩
  · simp [writeScript]
    omega
  · exact hopen.atFixup.getElem? (j := 0) (by rw [hf]; rfl)

/-- Settles O28: each part of the script stands where the lengths of the parts before it put it, in either wiring. -/
theorem readScriptPositions : Obligations.ReadScriptPositions := by
  intro o c fix wiring
  have hopen := opensWith_readScript wiring o c fix
  have hturn := hasAt_readScript_turnIn wiring o c fix
  have hdata := hasAt_readScript_data wiring o c fix
  have hend := hasAt_readScript_end wiring o c fix
  refine ⟨fun hf => hopen.atFixup.getElem? (j := 0) (by rw [hf]; rfl), hopen.atPrologue.getElem? (j := 0) rfl,
    hopen.atPrologue.getElem? (j := 1) rfl, hopen.atPrologue.getElem? (j := 2) rfl,
    fun i hi => (hopen.atCommand i hi).take_drop, fun hw => ?_, fun hw => ?_⟩
  · subst hw
    refine ⟨?_, hturn.getElem? (j := 0) rfl, hturn.getElem? (j := 1) rfl, fun i => (hdata i).take_drop,
      hend.getElem? (j := 0) rfl, hend.getElem? (j := 1) rfl, hend.getElem? (j := 2) rfl, hend.getElem? (j := 3) rfl⟩
    simp [readScript, turnIn, turnOut]
    omega
  · subst hw
    refine ⟨?_, fun i => (hdata i).take_drop, hend.getElem? (j := 0) rfl, hend.getElem? (j := 1) rfl,
      hend.getElem? (j := 2) rfl⟩
    simp [readScript, turnIn, turnOut]
    omega

/-! ## Times -/

/-- Settles O30: the count is a quotient rounded up. -/
theorem waitsNeverReturnEarly : Obligations.WaitsNeverReturnEarly := by
  intro cfg t
  unfold cycles cyclesAt
  omega

@[simp] theorem minDurationNs_nil (cfg : Config) : minDurationNs cfg [] = 0 := rfl

/-- The fix-up waits for nothing (R147). -/
theorem minDurationNs_fixup (cfg : Config) (fix : Bool) : minDurationNs cfg (fixup fix) = 0 := by cases fix <;> rfl

/-- A micro-op's own time comes before that of the rest. -/
theorem minDurationNs_cons (cfg : Config) (op : MicroOp) (ops : List MicroOp) :
    minDurationNs cfg (op :: ops) = opMinNs cfg op + minDurationNs cfg ops := rfl

/-- The minimum duration of a written byte (R170). -/
theorem minDurationNs_wbyte (cfg : Config) (o : BitOrder) (x : Byte) :
    minDurationNs cfg (wbyte o x) = 8 * (cfg.tDsu + cfg.tCh + cfg.tCl) := by
  simp [wbyte_eq, bitPositions, minDurationNs_wbit]
  omega

/-- The minimum duration of the read byte (R170). -/
theorem minDurationNs_rbyte (cfg : Config) : minDurationNs cfg rbyte = 8 * (cfg.tRdSample + cfg.tCl) := by
  simp [rbyte, rbit, bitPositions, minDurationNs_cons, opMinNs, Config.ns]
  omega

/-- The minimum duration of a write (R170). -/
theorem minDurationNs_writeScript (cfg : Config) (o : BitOrder) (c d : Byte) (fix : Bool) :
    minDurationNs cfg (writeScript o c d fix) =
      cfg.tCeSetup + 16 * (cfg.tDsu + cfg.tCh + cfg.tCl) + (cfg.tCeHold + cfg.tCeRecover) := by
  simp [writeScript, minDurationNs_fixup, minDurationNs_wbyte, prologue, epilogue, minDurationNs_cons, opMinNs, Config.ns]
  omega

/-- The minimum duration of a read, in either wiring (R170). -/
theorem minDurationNs_readScript (cfg : Config) (w : Wiring) (o : BitOrder) (c : Byte) (fix : Bool) :
    minDurationNs cfg (readScript w o c fix) =
      cfg.tCeSetup + 8 * (cfg.tDsu + cfg.tCh + cfg.tCl) + (if w = .shared then cfg.tTurn else 0) +
        8 * (cfg.tRdSample + cfg.tCl) + (cfg.tCeHold + cfg.tCeRecover) := by
  cases w <;>
    simp [readScript, minDurationNs_fixup, minDurationNs_wbyte, minDurationNs_rbyte, prologue, epilogue, turnIn, turnOut,
      minDurationNs_cons, opMinNs, Config.ns] <;>
    omega

/-- Settles O31: the sums over the parts of the scripts, and their values at the defaults of R7. -/
theorem transactionMinimumDurations : Obligations.TransactionMinimumDurations := by
  intro cfg o c d fix
  have hw := minDurationNs_writeScript cfg o c d fix
  have hr := minDurationNs_readScript cfg .shared o c fix
  have hp := minDurationNs_readScript cfg .split o c fix
  simp only [if_true, reduceCtorEq, if_false, Nat.add_zero] at hr hp
  refine ⟨hw, hr, hp, fun wiring hz bits hcfg => ?_⟩
  rw [hw, hr, hp, hcfg]
  simp only [Config.withDefaults, and_self]

/-! ## The separations of R166 -/

section Rows
variable {cfg : Config} {ops w : List MicroOp} {p a b : Nat} {x y : Bool} {i : Fin 8}

/-- A separation inside a part is the part's own, by the offsets of its two events in the part. -/
theorem HasAt.separationNs_eq {n : Nat} (h : HasAt ops p w) (m k : Nat) (ha : a = p + m) (hb : b = p + k)
    (hk : k ≤ w.length) (hn : separationNs cfg w m k = n) : separationNs cfg ops a b = n := by
  have hw : w.take k = (ops.drop p).take k := by rw [← h.take_drop, List.take_take, Nat.min_eq_left hk]
  rw [← hn, ha, hb, separationNs, separationNs, hw, Nat.add_assoc, ← List.drop_drop, List.drop_take, Nat.add_sub_cancel_left]

/-- From a data drive to the clock's rise (R148). -/
theorem separationNs_data_rise (h : HasAt ops p (wbit x)) (ha : a = p) (hb : b = p + 2) :
    separationNs cfg ops a b = cfg.tDsu := h.separationNs_eq 0 2 ha hb (by simp) rfl

/-- From the clock's rise to its fall while a bit is written (R148). -/
theorem separationNs_rise_fall (h : HasAt ops p (wbit x)) (ha : a = p + 2) (hb : b = p + 4) :
    separationNs cfg ops a b = cfg.tCh := h.separationNs_eq 2 4 ha hb (by simp) rfl

/-- From the clock's fall to what follows the cell of a written bit (R148). -/
theorem separationNs_fall_next (h : HasAt ops p (wbit x)) (ha : a = p + 4) (hb : b = p + 6) :
    separationNs cfg ops a b = cfg.tCl := h.separationNs_eq 4 6 ha hb (by simp) rfl

/-- The clock's period while a byte is written (R148). -/
theorem separationNs_write_period (h : HasAt ops p (wbit x)) (h' : HasAt ops (p + 6) (wbit y)) (ha : a = p + 2)
    (hb : b = p + 8) : separationNs cfg ops a b = cfg.tDsu + cfg.tCh + cfg.tCl := by
  refine (h.append h').separationNs_eq 2 8 ha hb (by simp) ?_
  simp [separationNs, wbit, minDurationNs_cons, opMinNs, Config.ns]
  omega

/-- From the clock's rise to the sample (R150). -/
theorem separationNs_rise_sample (h : HasAt ops p (rbit i)) (ha : a = p) (hb : b = p + 2) :
    separationNs cfg ops a b = cfg.tRdSample := h.separationNs_eq 0 2 ha hb (by simp [rbit]) rfl

/-- From the sample to the clock's fall (R150). -/
theorem separationNs_sample_fall (h : HasAt ops p (rbit i)) (ha : a = p + 2) (hb : b = p + 3) :
    separationNs cfg ops a b = 0 := h.separationNs_eq 2 3 ha hb (by simp [rbit]) rfl

/-- From the clock's fall to what follows the cell of a read bit (R150). -/
theorem separationNs_read_fall_next (h : HasAt ops p (rbit i)) (ha : a = p + 3) (hb : b = p + 5) :
    separationNs cfg ops a b = cfg.tCl := h.separationNs_eq 3 5 ha hb (by simp [rbit]) rfl

/-- The clock's period while the byte is read (R150). -/
theorem separationNs_read_period (h : HasAt ops p (rbit i)) (ha : a = p) (hb : b = p + 5) :
    separationNs cfg ops a b = cfg.tRdSample + cfg.tCl := by
  refine h.separationNs_eq 0 5 ha hb (by simp [rbit]) ?_
  simp [separationNs, rbit, minDurationNs_cons, opMinNs, Config.ns]

/-- From the last written bit's fall of the clock to CE's (R154). -/
theorem separationNs_write_ceHold (h : HasAt ops p (wbit x)) (h' : HasAt ops (p + 6) epilogue) (ha : a = p + 4)
    (hb : b = p + 7) : separationNs cfg ops a b = cfg.tCl + cfg.tCeHold := by
  refine (h.append h').separationNs_eq 4 7 ha hb (by simp) ?_
  simp [separationNs, wbit, epilogue, minDurationNs_cons, opMinNs, Config.ns]

/-- CE stays low for the recovery (R154). -/
theorem separationNs_ceRecover (h : HasAt ops p epilogue) (ha : a = p + 1) (hb : b = p + 3) :
    separationNs cfg ops a b = cfg.tCeRecover := h.separationNs_eq 1 3 ha hb (by simp) rfl

/-- The rows of R166 that every script shares: the CE setup and the command byte's cells. -/
theorem OpensWith.separationNs_rows {c : Byte} (h : OpensWith ops false c) :
    separationNs cfg ops 1 3 = cfg.tCeSetup ∧ separationNs cfg ops 1 5 = cfg.tCeSetup + cfg.tDsu ∧
    (∀ i, i < 8 → separationNs cfg ops (3 + 6 * i) (5 + 6 * i) = cfg.tDsu ∧
      separationNs cfg ops (5 + 6 * i) (7 + 6 * i) = cfg.tCh) ∧
    ∀ i, i < 7 → separationNs cfg ops (7 + 6 * i) (9 + 6 * i) = cfg.tCl ∧
      separationNs cfg ops (5 + 6 * i) (11 + 6 * i) = cfg.tDsu + cfg.tCh + cfg.tCl := by
  have hcell (i : Nat) (hi : i < 8) : HasAt ops (3 + 6 * i) (wbit (c.getLsbD i)) := by simpa using h.atCommand i hi
  have hfirst : HasAt ops 0 (prologue ++ wbit (c.getLsbD 0)) := h.atPrologue.append (hcell 0 (by omega))
  refine ⟨h.atPrologue.separationNs_eq 1 3 rfl rfl (by simp) rfl, hfirst.separationNs_eq 1 5 rfl rfl (by simp) ?_,
    fun i hi => ?_, fun i hi => ?_⟩
  · simp [separationNs, prologue, wbit, minDurationNs_cons, opMinNs, Config.ns]
  · exact ⟨separationNs_data_rise (hcell i hi) rfl (by omega), separationNs_rise_fall (hcell i hi) (by omega) (by omega)⟩
  · have hi' : i < 8 := by omega
    exact ⟨separationNs_fall_next (hcell i hi') (by omega) (by omega),
      separationNs_write_period (hcell i hi') (hcell (i + 1) (by omega)) (by omega) (by omega)⟩

end Rows

/-- The sixteen cells of a write without fix-up (R155). -/
theorem hasAt_writeScript_cell (o : BitOrder) (c d : Byte) {i : Nat} (hi : i < 16) :
    ∃ b, HasAt (writeScript o c d false) (3 + 6 * i) (wbit b) := by
  by_cases h : i < 8
  · exact ⟨_, by simpa using (opensWith_writeScript o c d false).atCommand i h⟩
  · have hd := hasAt_writeScript_data o c d false (i := i - 8) (by omega)
    rw [show false.toNat + 51 + 6 * (i - 8) = 3 + 6 * i by simp; omega] at hd
    exact ⟨_, hd⟩

/-- The rows of R166 for the data byte of a write. -/
theorem separationNs_writeScript_rows (cfg : Config) (o : BitOrder) (c d : Byte) :
    let w := writeScript o c d false
    (∀ i, i < 16 → separationNs cfg w (3 + 6 * i) (5 + 6 * i) = cfg.tDsu ∧
      separationNs cfg w (5 + 6 * i) (7 + 6 * i) = cfg.tCh) ∧
    (∀ i, i < 15 → separationNs cfg w (7 + 6 * i) (9 + 6 * i) = cfg.tCl ∧
      separationNs cfg w (5 + 6 * i) (11 + 6 * i) = cfg.tDsu + cfg.tCh + cfg.tCl) := by
  refine ⟨fun i hi => ?_, fun i hi => ?_⟩
  · obtain ⟨b, h⟩ := hasAt_writeScript_cell o c d hi
    exact ⟨separationNs_data_rise h rfl (by omega), separationNs_rise_fall h (by omega) (by omega)⟩
  · obtain ⟨b, h⟩ := hasAt_writeScript_cell o c d (i := i) (by omega)
    obtain ⟨b', h'⟩ := hasAt_writeScript_cell o c d (i := i + 1) (by omega)
    exact ⟨separationNs_fall_next h (by omega) (by omega), separationNs_write_period h h' (by omega) (by omega)⟩

/-- The rows of R166 for the read byte, whose first cell stands at `p`. -/
theorem separationNs_rbyte_rows (cfg : Config) {ops : List MicroOp} {p : Nat}
    (h : ∀ i : Fin 8, HasAt ops (p + 5 * i.val) (rbit i)) :
    (∀ i, i < 8 → separationNs cfg ops (p + 5 * i) (p + 2 + 5 * i) = cfg.tRdSample ∧
      separationNs cfg ops (p + 2 + 5 * i) (p + 3 + 5 * i) = 0) ∧
    (∀ i, i < 7 → separationNs cfg ops (p + 5 * i) (p + 5 + 5 * i) = cfg.tRdSample + cfg.tCl ∧
      separationNs cfg ops (p + 3 + 5 * i) (p + 5 + 5 * i) = cfg.tCl) := by
  refine ⟨fun i hi => ?_, fun i hi => ?_⟩
  · have hc := h ⟨i, hi⟩
    exact ⟨separationNs_rise_sample hc rfl (by simp; omega), separationNs_sample_fall hc (by simp; omega) (by simp; omega)⟩
  · have hc := h ⟨i, by omega⟩
    exact ⟨separationNs_read_period hc rfl (by simp; omega), separationNs_read_fall_next hc (by simp; omega) (by simp; omega)⟩

/-- Settles O32: each row lies in the parts of the script that its two events stand in. -/
theorem minimumSeparationsOfBusEvents : Obligations.MinimumSeparationsOfBusEvents := by
  intro cfg o c d w r p
  have hw : OpensWith w false c := opensWith_writeScript o c d false
  have hr : OpensWith r false c := opensWith_readScript .shared o c false
  have hp : OpensWith p false c := opensWith_readScript .split o c false
  have hwlast : HasAt w 93 (wbit (d.getLsbD 7)) := hasAt_writeScript_data o c d false (i := 7) (by omega)
  have hwend : HasAt w 99 epilogue := hasAt_writeScript_epilogue o c d false
  have hturn : HasAt r 51 (turnIn .shared) := hasAt_readScript_turnIn .shared o c false
  have hrdata : ∀ i : Fin 8, HasAt r (53 + 5 * i.val) (rbit i) := hasAt_readScript_data .shared o c false
  have hpdata : ∀ i : Fin 8, HasAt p (51 + 5 * i.val) (rbit i) := hasAt_readScript_data .split o c false
  have hrend : HasAt r 93 (turnOut .shared ++ epilogue) := hasAt_readScript_end .shared o c false
  have hpend : HasAt p 91 (turnOut .split ++ epilogue) := hasAt_readScript_end .split o c false
  obtain ⟨hwcells, hwperiods⟩ := separationNs_writeScript_rows cfg o c d
  obtain ⟨hrcells, hrperiods⟩ := separationNs_rbyte_rows cfg hrdata
  obtain ⟨hpcells, hpperiods⟩ := separationNs_rbyte_rows cfg hpdata
  have hcommand : HasAt r 45 (wbit (c.getLsbD 7)) := hr.atCommand 7 (by omega)
  refine ⟨?_, hwcells, hwperiods, separationNs_fall_next (hp.atCommand 7 (by omega)) rfl rfl,
    separationNs_fall_next hcommand rfl rfl, hturn.separationNs_eq 0 2 rfl rfl (by simp [turnIn]) rfl,
    (hcommand.append hturn).separationNs_eq 4 8 rfl rfl (by simp [turnIn]) ?_,
    fun i hi => ⟨(hrcells i hi).1, (hrcells i hi).2, (hpcells i hi).1, (hpcells i hi).2⟩,
    fun i hi => ⟨(hrperiods i hi).1, (hpperiods i hi).1, (hpperiods i hi).2⟩,
    separationNs_write_ceHold hwlast hwend rfl rfl,
    ((hrdata 7).append hrend).separationNs_eq 3 7 rfl rfl (by simp [rbit, turnOut]) ?_,
    ((hpdata 7).append hpend).separationNs_eq 3 6 rfl rfl (by simp [rbit, turnOut]) ?_,
    separationNs_ceRecover hwend rfl rfl, hrend.separationNs_eq 2 4 rfl rfl (by simp [turnOut]) rfl,
    hpend.separationNs_eq 1 3 rfl rfl (by simp [turnOut]) rfl⟩
  · intro ops hops
    have hopen : OpensWith ops false c := by
      simp only [List.mem_cons, List.not_mem_nil, or_false] at hops
      rcases hops with rfl | rfl | rfl <;> assumption
    exact hopen.separationNs_rows
  all_goals simp [separationNs, wbit, rbit, turnIn, turnOut, epilogue, minDurationNs_cons, opMinNs, Config.ns]

end Sys2Proof.Machine
end

section
/-! PROOFS. One cycle of the engine at each kind of action: the line, the direction or the bit of `rx` that it moves, and nothing
else (40_bus_engine.md R157 to R160). -/

namespace Sys2Proof.Machine

/-! ## The reset inputs that pass -/

/-- One cycle's inputs. -/
theorem State.tick_eq_tickBy (s : State) : s.tick = s.tickBy 1 := by
  simp [State.tick, State.tickBy]

/-- What a draw answers does not depend on the reset inputs. -/
theorem State.actionFails_tickBy (s : State) (n : Nat) :
    (s.tickBy n).actionFails = (s.actionFails.1, s.actionFails.2.tickBy n) := by
  cases ha : s.cfg.lineFailAdmitted <;> cases hf : s.fails <;>
    simp [State.actionFails, State.drawFail, State.tickBy, ha, hf]

/-- Whether an action fails does not depend on the reset inputs. -/
theorem State.actionFails_fst_tickBy (s : State) (n : Nat) : (s.tickBy n).actionFails.1 = s.actionFails.1 := by
  rw [s.actionFails_tickBy]

/-- What a sample answers does not depend on the reset inputs. -/
theorem State.drawSample_tickBy (s : State) (n : Nat) :
    (s.tickBy n).drawSample = (s.drawSample.1, s.drawSample.2.tickBy n) := by
  cases hs : s.samples <;> simp [State.drawSample, State.tickBy, hs]

/-- Completing a micro-op leaves the reset inputs to come. -/
theorem State.completeMicroOp_tickBy (s : State) (n : Nat) : (s.tickBy n).completeMicroOp = s.completeMicroOp.tickBy n := by
  rcases s.completeMicroOp_cases with ⟨h, he⟩ | ⟨h, he⟩
  · exact (if_pos h).trans (by rw [he]; rfl)
  · exact (if_neg h).trans (by rw [he]; rfl)

/-- Aborting leaves the reset inputs to come. -/
theorem State.abort_tickBy (s : State) (n : Nat) (op : MicroOp) (kind : ErrKind) (failed : Failed) :
    (s.tickBy n).abort op kind failed = (s.abort op kind failed).tickBy n := by
  simp only [State.abort_eq, State.tickBy]

/-- What a micro-op's completion says holds whatever reset inputs have passed meanwhile. -/
theorem OpCompleted.of_tickBy {s t : State} {n : Nat} {ev : Event} (h : OpCompleted (s.tickBy n) t ev) : OpCompleted s t ev where
  latches := ⟨h.latches.kind, h.latches.cmd, h.latches.wdata, h.latches.fix⟩
  cfg := h.cfg
  host := h.host
  refusedMark := h.refusedMark
  goesOn hn :=
    have ⟨hmode, hupc, hside, htrace⟩ := h.goesOn hn
    ⟨hmode, hupc, ⟨hside.result, hside.status, hside.ceUndef, hside.rspValid⟩, htrace⟩
  ends := h.ends

/-- What an abort says holds whatever reset inputs have passed meanwhile. -/
theorem AbortedAt.of_tickBy {s t : State} {n : Nat} {op : MicroOp} {kind : ErrKind} (h : AbortedAt (s.tickBy n) t op kind) :
    AbortedAt s t op kind :=
  { h with latches := ⟨h.latches.kind, h.latches.cmd, h.latches.wdata, h.latches.fix⟩ }

/-- A cycle of the running script, where no reset event occurs, is a cycle of its current micro-op (R162). -/
theorem step_of_currentOp {s : State} {op : MicroOp} (hb : s.mode = .busy) (hr : s.resetNow = false)
    (ho : s.currentOp = some op) : step s = .next (execMicroOp op (s.tickBy 1)) := by
  rw [← s.tick_eq_tickBy]
  simp [step, clockCycle, hr, hb, busyCycle, ho]

/-! ## Levels and directions after one micro-op -/

/-- A `Drive` sets the level of its line (R157). -/
theorem levelAfter_drive (l line : Line) (high : Bool) (lv : Level) :
    levelAfter l [.drive line high] lv = if line = l then (if high then .high else .low) else lv := by
  cases high <;> rfl

/-- A switch to output leaves the data line's level undefined (R158). -/
theorem levelAfter_setDir (l : Line) (way : Way) (lv : Level) :
    levelAfter l [.setDir way] lv = if way = .output ∧ l = .data then .x else lv := by
  cases way <;> cases l <;> rfl

/-- A `SetDir` sets the direction (R158). -/
theorem dirAfter_setDir (way : Way) (d : Dir) : dirAfter [.setDir way] d = if way = .input then .input else .out := by
  cases way <;> rfl

/-- Only a `Sample` takes an answer of the environment's samples (R160). -/
theorem execMicroOp_samples {s : State} {op : MicroOp} (hb : s.actionFails.1 = false) (h : ∀ i, op ≠ .sample i) :
    (execMicroOp op s).samples = s.samples := by
  cases op with
  | drive line high => cases line <;> simp [execMicroOp, execDrive_completes _ _ hb, State.setLine]
  | setDir way => cases way <;> simp [execMicroOp, execSetDir_completes _ hb, State.switchDir]
  | sample i => exact absurd rfl (h i)
  | wait t => rcases execWait_cases t s with ⟨-, he⟩ | ⟨-, he⟩ <;> simp [execMicroOp, he, finishWait]

/-! ## The direction at the micro-ops of a script -/

/-- From direction `d`, the micro-ops drive data only while it is OUT and sample only while it is IN (R33, R167). -/
def keepsDirection : Dir → List MicroOp → Bool
  | _, []        => true
  | d, op :: ops =>
    (match op with
      | .drive .data _ => decide (d = .out)
      | .sample _      => decide (d = .input)
      | _              => true) && keepsDirection (dirAfter [op] d) ops

/-- Two lists of micro-ops, the second from the direction that the first leaves. -/
theorem keepsDirection_append (d : Dir) (a b : List MicroOp) :
    keepsDirection d (a ++ b) = (keepsDirection d a && keepsDirection (dirAfter a d) b) := by
  induction a generalizing d with
  | nil => rfl
  | cons op a ih => simp only [List.cons_append, keepsDirection, ih, Bool.and_assoc]; rfl

/-- The micro-op at a position meets the direction that those before it have left. -/
theorem keepsDirection_at {d : Dir} {ops : List MicroOp} (h : keepsDirection d ops = true) {n : Nat} {op : MicroOp}
    (ho : ops[n]? = some op) : keepsDirection (dirAfter (ops.take n) d) [op] = true := by
  rw [← List.take_append_drop (n + 1) ops, take_succ_of_getElem? ho, keepsDirection_append, keepsDirection_append,
    Bool.and_eq_true, Bool.and_eq_true] at h
  obtain ⟨⟨-, hop⟩, -⟩ := h
  exact hop

/-- A script with the shared line keeps the direction where it starts as an output or with the fix-up (R147, R152, R153). -/
theorem keepsDirection_script (s : State) (d : Dir) (h : s.fix = false → d = .out) (hw : s.cfg.wiring = .shared) :
    keepsDirection d s.script = true := by
  have hfix : keepsDirection d (fixup s.fix) = true ∧ dirAfter (fixup s.fix) d = .out := by
    cases hf : s.fix
    · exact ⟨rfl, h hf⟩
    · exact ⟨rfl, rfl⟩
  cases hk : s.kind <;>
    simp only [State.script, hk, hw, writeScript, readScript, keepsDirection_append, dirAfter_append, hfix] <;>
    rfl

/-- With the shared line, a busy block's current micro-op meets the direction it needs (R33, R167). -/
theorem BusyInv.keepsDirection {s : State} (b : BusyInv s) (hw : s.cfg.wiring = .shared) {op : MicroOp}
    (ho : s.currentOp = some op) : keepsDirection s.ioDir [op] = true := by
  obtain ⟨d, hd, hdir⟩ := b.direction hw
  rw [hdir]
  exact keepsDirection_at (keepsDirection_script s d hd hw) ho

/-- A data drive runs only while the shared line is an output (R157, R167). -/
theorem BusyInv.ioDir_of_drive {s : State} (b : BusyInv s) (hw : s.cfg.wiring = .shared) {high : Bool}
    (ho : s.currentOp = some (.drive .data high)) : s.ioDir = .out := by
  simpa [Machine.keepsDirection] using b.keepsDirection hw ho

/-- A sample runs only while the shared line is an input (R159, R167). -/
theorem BusyInv.ioDir_of_sample {s : State} (b : BusyInv s) (hw : s.cfg.wiring = .shared) {i : Fin 8}
    (ho : s.currentOp = some (.sample i)) : s.ioDir = .input := by
  simpa [Machine.keepsDirection] using b.keepsDirection hw ho

/-! ## The bits of a byte -/

/-- The mask of bit `i` has that bit alone. -/
theorem bitOf_mask (i k : Fin 8) : bitOf (1#8 <<< i.val) k = decide (k = i) := by
  revert i k; decide

/-- Setting a bit sets that bit and no other. -/
theorem bitOf_setBit (x : Byte) (i k : Fin 8) (b : Bool) : bitOf (setBit x i b) k = if k = i then b else bitOf x k := by
  have hmask : (1#8 <<< i.val).getLsbD k.val = decide (k = i) := bitOf_mask i k
  cases b with
  | true =>
    simp only [setBit, if_true, bitOf, BitVec.getLsbD_or, hmask]
    by_cases h : k = i <;> simp [h]
  | false =>
    simp only [setBit, Bool.false_eq_true, if_false, bitOf, BitVec.getLsbD_and, BitVec.getLsbD_not, hmask, k.isLt]
    by_cases h : k = i <;> simp [h]

/-- Reversing a byte puts bit `7 - k` at `k` (R232). -/
theorem bitOf_reverseByte (x : Byte) (k : Fin 8) : bitOf (reverseByte x) k = bitOf x k.rev := by
  simp only [reverseByte, bitPositions, List.foldl, bitOf_setBit]
  fin_cases k <;> rfl

/-- In either bit order the capture sets bit `i` of `rx` and no other (R159, R241). -/
theorem bitOf_capture (o : BitOrder) (x : Byte) (i k : Fin 8) (b : Bool) :
    bitOf (capture o x i b) k = if k = i then b else bitOf x k := by
  cases o with
  | direct => exact bitOf_setBit x i k b
  | preReversed => simp [capture, bitOf_reverseByte, bitOf_setBit]

/-! ## The three actions -/

/-- Settles O16: the failing branch is the engine's abort, the other its completion with the drive's effect. -/
theorem driveMicroOp : Obligations.DriveMicroOp := by
  intro s line high hb hr ho
  have hsame := s.actionFails_fst_tickBy 1
  refine ⟨_, step_of_currentOp hb hr ho, fun hf => ?_, fun hf => ?_, fun hi hw hl => ?_⟩
  · obtain ⟨kind, hk⟩ : ∃ kind, MicroOp.errKind? (.drive line high) = some kind := by cases line <;> exact ⟨_, rfl⟩
    exact ⟨kind, hk, (execMicroOp_aborts hk (hsame.trans hf)).of_tickBy⟩
  · obtain ⟨he, ev, hc, hev, -, -⟩ := execMicroOp_action_completes (op := .drive line high) rfl (hsame.trans hf)
    obtain rfl := hev line high rfl
    exact ⟨hc.of_tickBy, he.ce.trans (levelAfter_drive ..), he.sclk.trans (levelAfter_drive ..),
      he.ioOut.trans (levelAfter_drive ..), he.ioDir, he.rx (by simp), he.waitcnt,
      execMicroOp_samples (hsame.trans hf) (by simp)⟩
  · subst hl
    exact (hi.busy hb).ioDir_of_drive hw ho

/-- Settles O17: the failing branch is the engine's abort, the other its completion with the switch's effect. -/
theorem setDirMicroOp : Obligations.SetDirMicroOp := by
  intro s way hb hr ho
  have hsame := s.actionFails_fst_tickBy 1
  refine ⟨_, step_of_currentOp hb hr ho, fun hf => ?_, fun hf => ?_⟩
  · have hk : MicroOp.errKind? (.setDir way) = some (if way = .input then .read else .write) := by cases way <;> rfl
    have ha := execMicroOp_aborts hk (hsame.trans hf)
    exact ⟨ha.of_tickBy, ha.ioDir⟩
  · obtain ⟨he, ev, hc, -, hev, -⟩ := execMicroOp_action_completes (op := .setDir way) rfl (hsame.trans hf)
    obtain rfl := hev way rfl
    refine ⟨hc.of_tickBy, he.ioDir.trans (dirAfter_setDir ..), he.ioOut.trans ?_, he.ce.trans ?_, he.sclk.trans ?_,
      he.rx (by simp), he.waitcnt, execMicroOp_samples (hsame.trans hf) (by simp)⟩ <;>
      simp [levelAfter_setDir, State.tickBy]

/-- Settles O18: the failing branch is the engine's abort, the other its completion with the captured bit. -/
theorem sampleMicroOp : Obligations.SampleMicroOp := by
  intro s i hb hr ho
  have hsame := s.actionFails_fst_tickBy 1
  refine ⟨_, step_of_currentOp hb hr ho, fun hf => (execMicroOp_aborts rfl (hsame.trans hf)).of_tickBy, fun hf => ?_,
    fun hi hw => (hi.busy hb).ioDir_of_sample hw ho⟩
  obtain ⟨he, ev, hc, -, -, hev⟩ := execMicroOp_action_completes (op := .sample i) rfl (hsame.trans hf)
  obtain ⟨rfl, hrx⟩ := hev i rfl
  have hbit (k : Fin 8) := (congrArg (bitOf · k) hrx).trans (bitOf_capture ..)
  refine ⟨_, fun b' rest hs => ?_, hc.of_tickBy, ?_, fun k hk hne => ?_, ⟨he.ce, he.sclk, he.ioDir, he.ioOut⟩, he.waitcnt⟩
  · have hplaced : (s.tickBy 1).actionFails.2.samples = b' :: rest := (State.actionFails_samples _).trans hs
    have hdraw := State.drawSample_of_placed hplaced
    simp [execMicroOp, execSample_completes i (hsame.trans hf), hdraw]
  · exact (hbit i).trans (if_pos rfl)
  · exact (hbit ⟨k, hk⟩).trans (if_neg fun h => hne (congrArg Fin.val h))

end Sys2Proof.Machine
end

section
/-! PROOFS. Runs of block cycles: the cycles of a wait and of the reset recovery, and that the block's cycles refine the
model-level step (40_bus_engine.md R161, R162, 70_reset_and_hazards.md R341). -/

namespace Sys2Proof.Machine

/-! ## Runs -/

/-- A machine's run goes on from where its first part ends. -/
theorem run_add {M : Host.Core} {s t : M.State} {m : Nat} (n : Nat) (h : M.run m s = .next t) :
    M.run (m + n) s = M.run n t := by
  induction m generalizing s with
  | zero =>
    obtain rfl := Host.Outcome.next.inj h
    rw [Nat.zero_add]
  | succ m ih =>
    rw [Nat.add_right_comm]
    cases hs : M.step s with
    | next u =>
      rw [run_succ_of_step hs] at h ⊢
      exact ih h
    | fault r | refused r => simp [Host.Core.run, hs] at h

/-- A run goes on from where its first part ends. -/
theorem runN_add {s t : State} {m : Nat} (n : Nat) (h : runN m s = .next t) : runN (m + n) s = runN n t :=
  run_add (M := core) n h

/-- A machine's run of one step. -/
theorem run_one {M : Host.Core} (s : M.State) : M.run 1 s = M.step s := by
  cases hs : M.step s <;> simp [Host.Core.run, hs]

/-- A run of one cycle. -/
theorem runN_one (s : State) : runN 1 s = step s := run_one (M := core) s

/-- A run of one more cycle. -/
theorem runN_succ_of_runN {s t : State} {n : Nat} (h : runN n s = .next t) : runN (n + 1) s = step t :=
  (runN_add 1 h).trans (runN_one t)

/-- Without a reset event in the coming `n` cycles, none occurs in any of them. -/
theorem State.resetNow_tickBy {s : State} {n k : Nat} (h : s.noResetFor n = true) (hk : k < n) :
    (s.tickBy k).resetNow = false := by
  cases hr : s.resets[k]? with
  | none => simp [State.resetNow, State.tickBy, List.headD_eq_head?_getD, List.head?_drop, hr]
  | some b =>
    have hb : b ∈ s.resets.take n := List.mem_of_getElem? (i := k) (by rw [List.getElem?_take_of_lt hk, hr])
    have := List.all_eq_true.mp h b hb
    simpa [State.resetNow, State.tickBy, List.headD_eq_head?_getD, List.head?_drop, hr] using this

/-- Without a reset event in the coming cycles, none occurs in this one. -/
theorem State.resetNow_of_noResetFor {s : State} {n : Nat} (h : s.noResetFor n = true) (hn : 0 < n) : s.resetNow = false :=
  State.resetNow_tickBy h hn

/-- No reset event in the coming cycles is none in the first of them. -/
theorem State.noResetFor_le {s : State} {m n : Nat} (h : s.noResetFor n = true) (hm : m ≤ n) : s.noResetFor m = true := by
  rw [State.noResetFor, ← Nat.min_eq_left hm, ← List.take_take]
  exact List.all_eq_true.mpr fun b hb => List.all_eq_true.mp h b (List.mem_of_mem_take hb)

/-- No reset event in the coming cycles is none in the last of them. -/
theorem State.noResetFor_tickBy {s : State} {m n : Nat} (h : s.noResetFor (m + n) = true) :
    (s.tickBy m).noResetFor n = true := by
  have htake : (s.resets.drop m).take n = (s.resets.take (m + n)).drop m := by rw [List.drop_take, Nat.add_sub_cancel_left]
  rw [State.noResetFor, State.tickBy, htake]
  exact List.all_eq_true.mpr fun b hb => List.all_eq_true.mp h b (List.mem_of_mem_drop hb)

/-- Inputs that pass in two stretches. -/
theorem State.tickBy_tickBy (s : State) (m n : Nat) : (s.tickBy m).tickBy n = s.tickBy (m + n) := by
  simp only [State.tickBy, List.drop_drop]

/-! ## The cycles of a wait (R161) -/

/-- `s` after `k` cycles in which the counter alone moved, to `w`. -/
def State.counted (s : State) (k w : Nat) : State := { s.tickBy k with waitcnt := w }

/-- Counting in two stretches. -/
theorem State.counted_counted (s : State) (k w m v : Nat) : (s.counted k w).counted m v = s.counted (k + m) v := by
  simp only [State.counted, State.tickBy, List.drop_drop]

/-- A count that still runs is what the counter shows. -/
theorem waitCount_counted {s : State} {p : WaitParam} {k w : Nat} (hw : w ≠ 0) : waitCount p (s.counted k w) = w :=
  waitCount_of_running hw

section Wait
variable {s : State} {p : WaitParam} {n : Nat} (hb : s.mode = .busy) (ho : s.currentOp = some (.wait p))
include hb ho

/-- In a cycle that finds more than 1 left, a wait counts down. -/
theorem step_wait_counts (hr : s.resetNow = false) (hc : 1 < waitCount p s) :
    step s = .next (s.counted 1 (waitCount p s - 1)) :=
  (step_of_currentOp hb hr ho).trans (congrArg Host.Outcome.next (if_neg (Nat.not_le.mpr hc)))

/-- In a cycle that finds at most 1 left, a wait completes. -/
theorem step_wait_finishes (hr : s.resetNow = false) (hc : waitCount p s ≤ 1) : step s = .next (finishWait p (s.tickBy 1)) :=
  (step_of_currentOp hb hr ho).trans (congrArg Host.Outcome.next (if_pos hc))

/-- Before its last cycle a wait moves the counter only, by 1 a cycle. -/
theorem runN_wait_counts (hres : s.noResetFor n = true) (k : Nat) (hk : k + 1 < waitCount p s) (hn : k < n) :
    runN (k + 1) s = .next (s.counted (k + 1) (waitCount p s - (k + 1))) := by
  induction k with
  | zero => exact (runN_one s).trans (step_wait_counts hb ho (State.resetNow_tickBy hres hn) hk)
  | succ k ih =>
    have hu : waitCount p (s.counted (k + 1) (waitCount p s - (k + 1))) = waitCount p s - (k + 1) :=
      waitCount_counted (by omega)
    have hstep := step_wait_counts (s := s.counted (k + 1) (waitCount p s - (k + 1))) hb ho
      (State.resetNow_tickBy hres hn) (by rw [hu]; omega)
    rw [runN_succ_of_runN (ih (by omega) (by omega)), hstep, hu, State.counted_counted, Nat.sub_sub]

/-- A wait completes in the last of its cycles. -/
theorem runN_wait_finishes (hres : s.noResetFor (max 1 (waitCount p s)) = true) :
    runN (max 1 (waitCount p s)) s = .next (finishWait p (s.tickBy (max 1 (waitCount p s)))) := by
  by_cases hle : waitCount p s ≤ 1
  · rw [Nat.max_eq_left hle] at hres ⊢
    exact (runN_one s).trans (step_wait_finishes hb ho (State.resetNow_of_noResetFor hres Nat.one_pos) hle)
  · obtain ⟨k, hk⟩ : ∃ k, waitCount p s = k + 2 := ⟨waitCount p s - 2, by omega⟩
    have hmax : max 1 (waitCount p s) = k + 1 + 1 := by omega
    have hu : waitCount p (s.counted (k + 1) (waitCount p s - (k + 1))) = waitCount p s - (k + 1) :=
      waitCount_counted (by omega)
    rw [hmax] at hres ⊢
    have hstep := step_wait_finishes (s := s.counted (k + 1) (waitCount p s - (k + 1))) hb ho
      (State.resetNow_tickBy hres (by omega)) (by rw [hu]; omega)
    rw [runN_succ_of_runN (runN_wait_counts hb ho hres k (by omega) (by omega)), hstep]
    simp only [State.counted, State.tickBy, List.drop_drop, finishWait]

end Wait

/-- Settles O19: the wait's cycles, with the count its load. -/
theorem waitOccupiesItsCycles : Obligations.WaitOccupiesItsCycles := by
  intro s p hb hw ho n hres
  have hc : waitCount p s = cycles s.cfg p := if_pos hw
  rw [show n = max 1 (waitCount p s) by rw [hc]] at hres ⊢
  obtain ⟨he, hcomp⟩ := finishWait_completes p (s.tickBy (max 1 (waitCount p s)))
  refine ⟨fun k hpos hk => ?_, _, runN_wait_finishes hb ho hres, hcomp.of_tickBy, he.waitcnt,
    ⟨he.ce, he.sclk, he.ioDir, he.ioOut⟩, he.rx (by simp), by simp [finishWait, State.tickBy],
    by simp [finishWait, State.tickBy]⟩
  obtain ⟨j, rfl⟩ : ∃ j, k = j + 1 := ⟨k - 1, by omega⟩
  rw [runN_wait_counts hb ho hres j (by omega) (by omega), hc]
  rfl

/-! ## The cycles of the reset recovery (R341) -/

section Recovery
variable {s : State} {n : Nat} (hm : s.mode = .rstWait)
include hm

/-- A cycle of the reset recovery, where no reset event occurs. -/
theorem step_of_rstWait (hr : s.resetNow = false) : step s = .next (recoveryCycle (s.tickBy 1)) := by
  rw [← s.tick_eq_tickBy]
  simp [step, clockCycle, hr, hm]

/-- In a cycle that finds more than 1 left, the reset recovery counts down. -/
theorem step_recovers (hr : s.resetNow = false) (hc : 1 < s.waitcnt) : step s = .next (s.counted 1 (s.waitcnt - 1)) :=
  (step_of_rstWait hm hr).trans (congrArg Host.Outcome.next (if_neg (Nat.not_le.mpr hc)))

/-- In a cycle that finds at most 1 left, the reset recovery ends. -/
theorem step_recovered (hr : s.resetNow = false) (hc : s.waitcnt ≤ 1) :
    step s = .next { s.counted 1 0 with mode := .idle } :=
  (step_of_rstWait hm hr).trans (congrArg Host.Outcome.next (if_pos hc))

/-- Before its last cycle the reset recovery moves the counter only, by 1 a cycle. -/
theorem runN_recovery_counts (hres : s.noResetFor n = true) (k : Nat) (hk : k < max 1 s.waitcnt) (hn : k ≤ n) :
    runN k s = .next (s.counted k (s.waitcnt - k)) := by
  induction k with
  | zero => rfl
  | succ k ih =>
    have hc : 1 < s.waitcnt - k := by omega
    rw [runN_succ_of_runN (ih (by omega) (by omega)),
      step_recovers (s := s.counted k (s.waitcnt - k)) hm (State.resetNow_tickBy hres (by omega)) hc, State.counted_counted]
    rfl

/-- The reset recovery ends in the last of its cycles. -/
theorem runN_recovery_ends (hres : s.noResetFor (max 1 s.waitcnt) = true) :
    runN (max 1 s.waitcnt) s = .next { s.counted (max 1 s.waitcnt) 0 with mode := .idle } := by
  obtain ⟨k, hk⟩ : ∃ k, max 1 s.waitcnt = k + 1 := ⟨max 1 s.waitcnt - 1, by omega⟩
  have hc : s.waitcnt - k ≤ 1 := by omega
  rw [hk] at hres
  rw [hk, runN_succ_of_runN (runN_recovery_counts hm hres k (by omega) (by omega)),
    step_recovered (s := s.counted k (s.waitcnt - k)) hm (State.resetNow_tickBy hres (by omega)) hc, State.counted_counted]

end Recovery

/-! ## The model-level step (R162) -/

/-- Accepting a request leaves the reset inputs to come. -/
theorem exec_tickBy {i : Instr} {s t : State} (n : Nat) (h : exec i s = .next t) :
    exec i (s.tickBy n) = .next (t.tickBy n) := by
  cases i with
  | bcdenc v =>
    by_cases hv : v.toNat ≤ 99
    · rw [exec_bcdenc_of_le hv] at h ⊢
      obtain rfl := Host.Outcome.next.inj h
      rfl
    · rw [exec_bcdenc_of_not_le hv] at h ⊢
      obtain rfl := Host.Outcome.next.inj h
      rfl
  | _ =>
    obtain rfl := Host.Outcome.next.inj h
    rfl

/-- A ready cycle answers a next state, and leaves the reset inputs to come. -/
theorem idleCycle_tickBy (s : State) (n : Nat) :
    ∃ t, idleCycle s = .next t ∧ idleCycle (s.tickBy n) = .next (t.tickBy n) := by
  have hq : (s.tickBy n).reqShown = s.reqShown := rfl
  simp only [idleCycle, State.takeRequest, hq]
  cases s.reqShown with
  | none => exact ⟨_, rfl, rfl⟩
  | some w =>
    cases hd : decode w with
    | none => simp only [hd]; exact ⟨_, rfl, rfl⟩
    | some i =>
      obtain ⟨t, ht⟩ := exec_next i { s with host := s.host.tail }
      simp only [hd]
      exact ⟨t, ht, exec_tickBy n ht⟩

/-- A cycle of an action leaves the reset inputs to come. -/
theorem execMicroOp_tickBy {op : MicroOp} (s : State) (n : Nat) (ha : op.isAction = true) :
    execMicroOp op (s.tickBy n) = (execMicroOp op s).tickBy n := by
  have hsame := s.actionFails_fst_tickBy n
  cases hf : s.actionFails.1 with
  | true =>
    have haborts (u : State) (h : u.actionFails.1 = true) :
        execMicroOp op u = u.actionFails.2.abort op op.failure.1 op.failure.2 := by
      rcases execMicroOp_action_cases u ha with ⟨-, he⟩ | ⟨hn, -⟩
      · exact he
      · exact nomatch h.symm.trans hn
    rw [haborts _ (hsame.trans hf), haborts _ hf, s.actionFails_tickBy, State.abort_tickBy]
  | false =>
    cases op with
    | drive line high =>
      simp only [execMicroOp, execDrive_completes _ _ hf, execDrive_completes _ _ (hsame.trans hf), s.actionFails_tickBy,
        ← State.completeMicroOp_tickBy]
      cases line <;> rfl
    | setDir way =>
      simp only [execMicroOp, execSetDir_completes _ hf, execSetDir_completes _ (hsame.trans hf), s.actionFails_tickBy,
        ← State.completeMicroOp_tickBy]
      cases way <;> rfl
    | sample i =>
      simp only [execMicroOp, execSample_completes _ hf, execSample_completes _ (hsame.trans hf), s.actionFails_tickBy,
        State.drawSample_tickBy, ← State.completeMicroOp_tickBy]
      rfl
    | wait p => exact nomatch ha

/-- The completion of a wait leaves the reset inputs to come. -/
theorem finishWait_tickBy (p : WaitParam) (s : State) (n : Nat) : finishWait p (s.tickBy n) = (finishWait p s).tickBy n := by
  simp only [finishWait, ← State.completeMicroOp_tickBy]
  rfl

/-- An action is one cycle (R161, R352). -/
theorem cyclesLeft_action {s : State} {op : MicroOp} (hb : s.mode = .busy) (ho : s.currentOp = some op)
    (ha : op.isAction = true) : cyclesLeft s = 1 := by
  cases op with
  | wait p => exact nomatch ha
  | _ => simp [cyclesLeft, hb, ho]

/-- An action as a whole is its one cycle. -/
theorem wholeMicroOp_action {op : MicroOp} (ha : op.isAction = true) (s : State) : wholeMicroOp op s = execMicroOp op s := by
  cases op with
  | wait p => exact nomatch ha
  | _ => rfl

/-- The block's cycles at a micro-op do what it does as a whole (R161, R162). -/
theorem runN_wholeMicroOp {s : State} {op : MicroOp} (hb : s.mode = .busy) (ho : s.currentOp = some op)
    (hres : s.noResetFor (cyclesLeft s) = true) :
    runN (cyclesLeft s) s = .next ((wholeMicroOp op s).tickBy (cyclesLeft s)) := by
  by_cases ha : op.isAction = true
  · rw [cyclesLeft_action hb ho ha] at hres ⊢
    rw [runN_one, step_of_currentOp hb (State.resetNow_of_noResetFor hres Nat.one_pos) ho, execMicroOp_tickBy s 1 ha,
      wholeMicroOp_action ha]
  · cases op with
    | wait p =>
      rw [cyclesLeft_wait hb ho] at hres ⊢
      rw [runN_wait_finishes hb ho hres, finishWait_tickBy]
      rfl
    | _ => exact absurd rfl ha

/-- Settles O52, by the mode: a ready cycle, the cycles of a micro-op, those of the reset recovery. -/
theorem cyclesRefineTheModelStep : Obligations.CyclesRefineTheModelStep := by
  intro s hres
  cases hm : s.mode with
  | idle =>
    have hmicro : microStep s = idleCycle s := by simp [microStep, hm]
    have hc : cyclesLeft s = 1 := by simp [cyclesLeft, hm]
    rw [hc] at hres ⊢
    have hstep : step s = idleCycle (s.tickBy 1) := by
      have hr : s.resetNow = false := State.resetNow_of_noResetFor hres Nat.one_pos
      rw [← s.tick_eq_tickBy]
      simp [step, clockCycle, hr, hm]
    obtain ⟨u, hu, hut⟩ := idleCycle_tickBy s 1
    rw [hmicro, hu, runN_one, hstep, hut]
    exact ⟨fun t ht => by rw [Host.Outcome.next.inj ht], fun r hr => nomatch hr⟩
  | busy =>
    cases ho : s.currentOp with
    | some op =>
      have hmicro : microStep s = .next (wholeMicroOp op s) := by simp [microStep, hm, ho]
      rw [hmicro, runN_wholeMicroOp hm ho hres]
      exact ⟨fun t ht => by rw [Host.Outcome.next.inj ht], fun r hr => nomatch hr⟩
    | none =>
      have hmicro : microStep s = .fault .scriptOverrun := by simp [microStep, hm, ho]
      have hc : cyclesLeft s = 1 := by simp [cyclesLeft, hm, ho]
      have hstep : step s = .fault .scriptOverrun := by
        have hr : s.resetNow = false := State.resetNow_of_noResetFor (hc ▸ hres) Nat.one_pos
        simp [step, clockCycle, hr, hm, busyCycle, ho]
      rw [hmicro, hc, runN_one, hstep]
      exact ⟨fun t ht => (nomatch ht), fun r hr => hr⟩
  | rstWait =>
    have hmicro : microStep s = .next { s with waitcnt := 0, mode := .idle } := by simp [microStep, hm]
    have hc : cyclesLeft s = max 1 s.waitcnt := by simp [cyclesLeft, hm]
    rw [hc] at hres ⊢
    rw [hmicro, runN_recovery_ends hm hres]
    exact ⟨fun t ht => by rw [← Host.Outcome.next.inj ht]; rfl, fun r hr => nomatch hr⟩

end Sys2Proof.Machine
end

section
/-! PROOFS. What holds in every run from reset: the invariant, and with it the idle bus at rest and the direction of the data
line (10_state.md R33, 40_bus_engine.md R167, R168). -/

namespace Sys2Proof.Machine

/-- A run keeps the invariant. -/
theorem Inv.runN {s t : State} (h : Inv s) {n : Nat} (hrun : runN n s = .next t) : Inv t := by
  induction n generalizing s with
  | zero =>
    obtain rfl := Host.Outcome.next.inj hrun
    exact h
  | succ n ih =>
    obtain ⟨u, hs⟩ := blockNeverStops s h
    rw [runN_succ_of_step hs] at hrun
    exact ih (invariantKeptByEveryStep s u h hs) hrun

/-- Every state of every run from reset has the invariant. -/
theorem Reachable.inv {s : State} (h : Reachable s) : Inv s := by
  obtain ⟨cfg, host, resets, fails, samples, draws, n, hrun⟩ := h
  exact ((inv_resetOf cfg).frame rfl).runN hrun

/-- A step without a reset that starts in IDLE and ends there changes no line (R168). -/
theorem StepsTo.sameLines_of_idle {s t : State} (h : StepsTo s t) (hr : s.resetNow = false) (hi : s.mode = .idle)
    (ht : t.mode = .idle) : SameLines s t := by
  cases h with
  | reset hr' => exact nomatch hr.symm.trans hr'
  | waits | answers | refuses => constructor <;> simp
  | startsRead | startsWrite => exact nomatch ht
  | aborts hm | advances hm | completes hm | counts hm | recovers hm | recovered hm => exact nomatch hi.symm.trans hm

/-- Settles O35: the invariant says it of an idle block, and a step from IDLE to IDLE changes no line. -/
theorem idleBusIsAtRestInEveryRun : Obligations.IdleBusIsAtRestInEveryRun := fun _ hs hi =>
  ⟨(hs.inv.idle hi).atRest, fun _ hr h ht => (stepsTo_of_step h).sameLines_of_idle hr hi ht⟩

/-- Settles O36: the invariant ties the direction to the script, which keeps to it. -/
theorem dataLineDisciplineInEveryRun : Obligations.DataLineDisciplineInEveryRun := fun _ hs =>
  ⟨fun hw hb => ⟨fun _ ho => (hs.inv.busy hb).ioDir_of_drive hw ho, fun _ ho => (hs.inv.busy hb).ioDir_of_sample hw ho⟩,
    fun hw => (hs.inv.splitDir hw).1⟩

end Sys2Proof.Machine
end

section
/-! PROOFS. An undisturbed run of a script: no reset event and no failing action in it. Its micro-ops are performed one after the
other, and the events of a whole script are one frame on the bus (40_bus_engine.md R162 to R165). -/

namespace Sys2Proof.Machine

/-! ## Actions that do not fail -/

/-- Which actions fail depends on the configuration and the placed answers. -/
theorem State.noFailFor_congr {s t : State} {n : Nat} (hc : t.cfg = s.cfg) (hf : t.fails = s.fails) (h : s.noFailFor n) :
    t.noFailFor n := by
  rw [State.noFailFor, hc, hf]
  exact h

/-- Where the coming `n + 1` actions do not fail, this one does not, and the `n` after it do not. -/
theorem State.noFailFor_succ {s : State} {n : Nat} (h : s.noFailFor (n + 1)) :
    s.actionFails.1 = false ∧ s.actionFails.2.noFailFor n := by
  cases ha : s.cfg.lineFailAdmitted with
  | false =>
    rw [State.actionFails_of_not_admitted ha]
    exact ⟨rfl, .inl ha⟩
  | true =>
    rcases h with hn | ⟨hlen, hall⟩
    · exact nomatch ha.symm.trans hn
    · cases hf : s.fails with
      | nil => simp [hf] at hlen
      | cons b rest =>
        rw [State.actionFails_of_placed ha hf]
        simp only [hf, List.length_cons, Nat.add_le_add_iff_right, List.take_succ_cons, List.all_cons, Bool.and_eq_true,
          beq_iff_eq] at hlen hall
        exact ⟨hall.1, .inr ⟨hlen, hall.2⟩⟩

/-- An action uses up its own answer (R157 to R159). -/
theorem execMicroOp_fails {s : State} {op : MicroOp} (ha : op.isAction = true) (hf : s.actionFails.1 = false) :
    (execMicroOp op s).fails = s.actionFails.2.fails := by
  cases op with
  | drive line high => cases line <;> simp [execMicroOp, execDrive_completes _ _ hf, State.setLine]
  | setDir way => cases way <;> simp [execMicroOp, execSetDir_completes _ hf, State.switchDir]
  | sample i => simp [execMicroOp, execSample_completes _ hf]
  | wait p => exact nomatch ha

/-! ## One micro-op that does not fail -/

/-- A whole micro-op that does not fail completes, with its event (R157 to R161, R164). -/
theorem wholeMicroOp_completes {s : State} {op : MicroOp} (hf : op.isAction = true → s.actionFails.1 = false) :
    OpEffect s (wholeMicroOp op s) op ∧
      ∃ bits : List Bool, bits.length = 8 ∧ OpCompleted s (wholeMicroOp op s) (eventOf bits op) := by
  by_cases ha : op.isAction = true
  · rw [wholeMicroOp_action ha]
    obtain ⟨he, ev, hc, hdrive, hset, hsample⟩ := execMicroOp_action_completes ha (hf ha)
    refine ⟨he, List.replicate 8 s.actionFails.2.drawSample.1, rfl, ?_⟩
    cases op with
    | drive line high => obtain rfl := hdrive line high rfl; exact hc
    | setDir way => obtain rfl := hset way rfl; exact hc
    | sample i =>
      obtain ⟨rfl, -⟩ := hsample i rfl
      have hbit : (List.replicate 8 s.actionFails.2.drawSample.1).getD i.val false = s.actionFails.2.drawSample.1 := by
        rw [List.getD_replicate _ i.isLt]
      rwa [eventOf, hbit]
    | wait p => exact nomatch ha
  · cases op with
    | wait p => exact ⟨(finishWait_completes p s).1, List.replicate 8 false, rfl, (finishWait_completes p s).2⟩
    | _ => exact absurd rfl ha

/-- A whole micro-op leaves the reset inputs to come. -/
theorem wholeMicroOp_tickBy (op : MicroOp) (s : State) (n : Nat) :
    wholeMicroOp op (s.tickBy n) = (wholeMicroOp op s).tickBy n := by
  by_cases ha : op.isAction = true
  · rw [wholeMicroOp_action ha, wholeMicroOp_action ha, execMicroOp_tickBy s n ha]
  · cases op with
    | wait p => exact finishWait_tickBy p s n
    | _ => exact absurd rfl ha

/-! ## The micro-ops ahead of a running script -/

/-- The micro-ops `ops`, each as a whole, one after the other (R162). -/
def performAll (ops : List MicroOp) (s : State) : State := ops.foldl (fun u op => wholeMicroOp op u) s

/-- Performing micro-ops leaves the reset inputs to come. -/
theorem performAll_tickBy (ops : List MicroOp) (s : State) (n : Nat) :
    performAll ops (s.tickBy n) = (performAll ops s).tickBy n := by
  induction ops generalizing s with
  | nil => rfl
  | cons op ops ih =>
    show performAll ops (wholeMicroOp op (s.tickBy n)) = _
    rw [wholeMicroOp_tickBy, ih]
    rfl

/-- The block is at the start of the micro-ops `ops` of its script, with `rest` after them, and no action of `ops` fails. -/
structure Ahead (s : State) (ops rest : List MicroOp) : Prop where
  busy    : s.mode = .busy
  atStart : s.waitcnt = 0
  script  : s.script.drop s.upc = ops ++ rest
  noFail  : s.noFailFor (actionCount ops)

/-- What is ahead stays so while reset inputs pass. -/
theorem Ahead.tickBy {s : State} {ops rest : List MicroOp} (h : Ahead s ops rest) (n : Nat) : Ahead (s.tickBy n) ops rest :=
  ⟨h.busy, h.atStart, h.script, h.noFail⟩

section Ahead
variable {s : State} {op : MicroOp} {ops rest : List MicroOp} (h : Ahead s (op :: ops) rest)
include h

/-- The first micro-op ahead is the current one. -/
theorem Ahead.currentOp : s.currentOp = some op := by
  rw [State.currentOp, ← List.head?_drop, h.script]
  rfl

/-- The script's end, from where the block is in it. -/
theorem Ahead.script_length : s.script.length = s.upc + 1 + (ops ++ rest).length := by
  have hlen := congrArg List.length h.script
  have hlt : s.upc < s.script.length := (List.getElem?_eq_some_iff.mp h.currentOp).1
  simp only [List.length_drop, List.cons_append, List.length_cons] at hlen
  omega

/-- The first micro-op ahead does not fail. -/
theorem Ahead.not_fails (ha : op.isAction = true) : s.actionFails.1 = false := by
  have hn := h.noFail
  rw [actionCount, List.countP_cons_of_pos ha] at hn
  exact (State.noFailFor_succ hn).1

/-- The micro-op's own cycles are what the block has left of it. -/
theorem Ahead.cyclesLeft : cyclesLeft s = opCycles s.cfg op := by
  cases op with
  | wait p => rw [cyclesLeft_wait h.busy h.currentOp, waitCount, if_pos h.atStart]; rfl
  | _ => exact cyclesLeft_action h.busy h.currentOp rfl

/-- After a micro-op that is not the script's last, the next ones are ahead. -/
theorem Ahead.next (hne : ops ++ rest ≠ []) : Ahead (wholeMicroOp op s) ops rest := by
  obtain ⟨he, bits, -, hc⟩ := wholeMicroOp_completes h.not_fails
  have hlen := h.script_length
  have hpos := List.length_pos_iff.mpr hne
  obtain ⟨hmode, hupc, -, -⟩ := hc.goesOn (by omega)
  refine ⟨hmode.trans h.busy, ?_, ?_, ?_⟩
  · rw [he.waitcnt, h.atStart, ite_self]
  · rw [hc.script, hupc, ← List.drop_drop, h.script]
    rfl
  · have hn := h.noFail
    by_cases ha : op.isAction = true
    · rw [actionCount, List.countP_cons_of_pos ha] at hn
      refine State.noFailFor_congr ?_ ?_ (State.noFailFor_succ hn).2
      · rw [hc.cfg, State.actionFails_cfg]
      · rw [wholeMicroOp_action ha, execMicroOp_fails ha (h.not_fails ha)]
    · rw [actionCount, List.countP_cons_of_neg ha] at hn
      refine State.noFailFor_congr hc.cfg ?_ hn
      cases op with
      | wait p => simp [wholeMicroOp, finishWait]
      | _ => exact absurd rfl ha

end Ahead

/-- Without a reset event, the cycles of the micro-ops ahead perform them (R161, R162, R352). -/
theorem Ahead.runN {s : State} {ops rest : List MicroOp} (h : Ahead s ops rest)
    (hres : s.noResetFor (scriptCycles s.cfg ops) = true) :
    runN (scriptCycles s.cfg ops) s = .next ((performAll ops s).tickBy (scriptCycles s.cfg ops)) := by
  induction ops generalizing s with
  | nil => rfl
  | cons op ops ih =>
    have hcycles : scriptCycles s.cfg (op :: ops) = Machine.cyclesLeft s + scriptCycles s.cfg ops := by
      rw [h.cyclesLeft]
      rfl
    rw [hcycles] at hres ⊢
    have hop := runN_wholeMicroOp h.busy h.currentOp (State.noResetFor_le hres (Nat.le_add_right ..))
    rw [runN_add _ hop]
    by_cases hne : ops ++ rest = []
    · obtain ⟨rfl, -⟩ := List.append_eq_nil_iff.mp hne
      rfl
    · obtain ⟨he, bits, -, hc⟩ := wholeMicroOp_completes h.not_fails
      have hrest := ih ((h.next hne).tickBy (Machine.cyclesLeft s))
      rw [show ((wholeMicroOp op s).tickBy (Machine.cyclesLeft s)).cfg = s.cfg from hc.cfg, performAll_tickBy,
        State.tickBy_tickBy] at hrest
      refine hrest ?_
      rw [State.noResetFor, State.tickBy, he.resets]
      exact State.noResetFor_tickBy hres

/-! ## The events of a whole script -/

/-- Setting the bit of a sample that is not among the micro-ops leaves their events. -/
theorem map_eventOf_set {ops : List MicroOp} {i : Fin 8} (h : .sample i ∉ ops) (bits : List Bool) (b : Bool) :
    ops.map (eventOf (bits.set i.val b)) = ops.map (eventOf bits) := by
  refine List.map_congr_left fun op hop => ?_
  cases op with
  | sample j =>
    have hne : i.val ≠ j.val := fun he => h (Fin.ext he ▸ hop)
    simp [eventOf, List.getElem?_set_ne hne]
  | _ => rfl

/-- Where each bit is sampled once at most, one list of bits serves a micro-op and those after it. -/
theorem exists_bits_cons {op : MicroOp} {ops : List MicroOp} (h : ∀ i, (op :: ops).count (.sample i) ≤ 1)
    (first : List Bool) {bits : List Bool} (hlen : bits.length = 8) :
    ∃ all : List Bool, all.length = 8 ∧ (op :: ops).map (eventOf all) = eventOf first op :: ops.map (eventOf bits) := by
  cases op with
  | sample i =>
    have hnot : .sample i ∉ ops := by
      have := h i
      rw [List.count_cons_self] at this
      exact List.count_eq_zero.mp (by omega)
    refine ⟨bits.set i.val (first.getD i.val false), by simpa, ?_⟩
    rw [List.map_cons, map_eventOf_set hnot]
    simp [eventOf, hlen]
  | _ => exact ⟨bits, hlen, rfl⟩

/-- `t` has run the micro-ops `ops` of `s`, the last of its script among them, and answered OK (R163). -/
structure Finished (s t : State) (ops : List MicroOp) : Prop where
  trace  : ∃ bits : List Bool, bits.length = 8 ∧ t.trace = s.trace ++ ops.map (eventOf bits) ++ [.respond .ok t.result]
  result : s.kind = .write → t.result = 0x00

/-- Performing the rest of a script, in which each bit is sampled once at most, finishes it. -/
theorem Ahead.finished {s : State} {op : MicroOp} {ops : List MicroOp} (h : Ahead s (op :: ops) [])
    (hone : ∀ i, (op :: ops).count (.sample i) ≤ 1) : Finished s (performAll (op :: ops) s) (op :: ops) := by
  induction ops generalizing s op with
  | nil =>
    obtain ⟨-, bits, hbits, hc⟩ := wholeMicroOp_completes h.not_fails
    obtain ⟨-, -, -, hresult, -, -, htrace⟩ := hc.ends h.script_length.symm
    exact ⟨⟨bits, hbits, by rw [List.append_assoc]; exact htrace⟩, fun hk => hresult.trans (by simp [hk])⟩
  | cons op' ops ih =>
    obtain ⟨-, first, -, hc⟩ := wholeMicroOp_completes h.not_fails
    have hlen := h.script_length
    obtain ⟨-, -, -, htrace⟩ := hc.goesOn (by simp at hlen; omega)
    have hrest := ih (h.next (by simp)) fun i => (List.count_le_count_cons).trans (hone i)
    obtain ⟨bits, hbits, htrace'⟩ := hrest.trace
    obtain ⟨all, hall, hmap⟩ := exists_bits_cons hone first hbits
    refine ⟨⟨all, hall, htrace'.trans ?_⟩, fun hk => hrest.result (hc.latches.kind.trans hk)⟩
    have hperform : performAll (op :: op' :: ops) s = performAll (op' :: ops) (wholeMicroOp op s) := rfl
    rw [htrace, hmap, hperform]
    simp

/-- A script samples each bit once at most (R151, R155, R156). -/
theorem count_sample_script_le (s : State) (i : Fin 8) : s.script.count (.sample i) ≤ 1 := by
  have hrbyte : rbyte.count (.sample i) ≤ 1 := by revert i; decide
  have hwbyte (o : BitOrder) (x : Byte) : (wbyte o x).count (.sample i) = 0 :=
    List.count_eq_zero.mpr (by simp [wbyte, wbit])
  have hfixup : (fixup s.fix).count (.sample i) = 0 := List.count_eq_zero.mpr (by simp [fixup])
  have hturnIn : (turnIn s.cfg.wiring).count (.sample i) = 0 :=
    List.count_eq_zero.mpr (by cases s.cfg.wiring <;> simp [turnIn])
  have hturnOut : (turnOut s.cfg.wiring).count (.sample i) = 0 :=
    List.count_eq_zero.mpr (by cases s.cfg.wiring <;> simp [turnOut])
  have hends : prologue.count (.sample i) = 0 ∧ epilogue.count (.sample i) = 0 :=
    ⟨List.count_eq_zero.mpr (by simp [prologue]), List.count_eq_zero.mpr (by simp [epilogue])⟩
  cases hk : s.kind <;> simp [State.script, hk, writeScript, readScript, hwbyte, hrbyte, hfixup, hturnIn, hturnOut, hends]

/-! ## From the acceptance to the end -/

/-- The fix-up flag, as the scripts of a request state it (R147). -/
theorem State.needsFix_eq (s : State) : s.needsFix = decide (s.cfg.wiring = .shared ∧ s.ioDir ≠ .out) := by
  simp [State.needsFix, Bool.and_comm]

/-- The state in which a ready cycle accepts the word shown: the word and the cycle's reset input have passed (R42). -/
def State.taken (s : State) : State := { s.tickBy 1 with host := s.host.tail }

/-- A ready cycle without a reset event accepts the request shown. -/
theorem ReadyWith.step_eq {s : State} {i : Instr} (h : ReadyWith s (encode i)) (hwf : i.wf = true) (hr : s.resetNow = false) :
    step s = exec i s.taken := by
  rw [stepRunsTheDecodedRequest s _ i h.idle hr h.shown (decode_encode hwf), State.taken, State.tickBy, List.drop_one]

/-- Accepting a write, by its register (R201 to R214). -/
theorem exec_writeOf (reg : ClockReg) (d : Byte) (s : State) :
    exec (.writeOf reg d) s = .next (s.acceptWrite (encode (.writeOf reg d)) (cmdTable reg false) d) := by
  cases reg <;> rfl

/-- Accepting a read, by its register (R200 to R215). -/
theorem exec_readOf (reg : ClockReg) (s : State) :
    exec (.readOf reg) s = .next (s.acceptRead (encode (.readOf reg)) (cmdTable reg true)) := by
  cases reg <;> rfl

/-- The state after the acceptance cycle of a write. -/
def State.writing (s : State) (reg : ClockReg) (d : Byte) : State :=
  s.taken.acceptWrite (encode (.writeOf reg d)) (cmdTable reg false) d

/-- The state after the acceptance cycle of a read. -/
def State.reading (s : State) (reg : ClockReg) : State :=
  s.taken.acceptRead (encode (.readOf reg)) (cmdTable reg true)

/-- An accepted write runs the write script of its request (R155, R162). -/
theorem State.script_writing (s : State) (reg : ClockReg) (d : Byte) : (s.writing reg d).script = writeScriptFrom s reg d := by
  show writeScript _ _ _ s.needsFix = _
  rw [s.needsFix_eq]
  rfl

/-- An accepted read runs the read script of its request (R156, R162). -/
theorem State.script_reading (s : State) (reg : ClockReg) : (s.reading reg).script = readScriptFrom s reg := by
  show readScript _ _ _ s.needsFix = _
  rw [s.needsFix_eq]
  rfl

/-- A transaction that `a` starts after the cycle in which it is accepted finishes, where no reset event and no failure
disturbs it, in the cycles of its script (R352). -/
theorem runN_finished {s a : State} (hs : step s = .next a) (hb : a.mode = .busy) (hu : a.upc = 0) (hw : a.waitcnt = 0)
    (hc : a.cfg = s.cfg) (hr : a.resets = s.resets.drop 1)
    (hres : s.noResetFor (1 + scriptCycles s.cfg a.script) = true) (hfail : a.noFailFor (actionCount a.script)) :
    ∃ t, runN (1 + scriptCycles s.cfg a.script) s = .next t ∧ Finished a t a.script := by
  have hahead : Ahead a a.script [] := ⟨hb, hw, by rw [hu]; simp, hfail⟩
  have hres' : a.noResetFor (scriptCycles a.cfg a.script) = true := by
    rw [State.noResetFor, hr, hc]
    exact State.noResetFor_tickBy hres
  refine ⟨_, (runN_add _ ((runN_one s).trans hs)).trans (hc ▸ hahead.runN hres'), ?_⟩
  obtain ⟨op, ops, hops⟩ := List.exists_cons_of_length_pos (script_length_pos a)
  have hfin := Ahead.finished (hops ▸ hahead) fun i => hops ▸ count_sample_script_le a i
  rw [hops]
  exact ⟨hfin.trace, hfin.result⟩

/-- An undisturbed write runs its whole script and ends OK (R155, R163, R201). -/
theorem ReadyWith.write_finishes {s : State} {reg : ClockReg} {d : Byte} (h : ReadyWith s (encode (.writeOf reg d)))
    (hres : s.noResetFor (1 + scriptCycles s.cfg (writeScriptFrom s reg d)) = true)
    (hfail : s.noFailFor (actionCount (writeScriptFrom s reg d))) :
    ∃ t, runN (1 + scriptCycles s.cfg (writeScriptFrom s reg d)) s = .next t ∧
      Finished (s.writing reg d) t (writeScriptFrom s reg d) := by
  have hr : s.resetNow = false := State.resetNow_of_noResetFor hres (by omega)
  have hs : step s = .next (s.writing reg d) := (h.step_eq (by cases reg <;> rfl) hr).trans (exec_writeOf reg d _)
  have hw : s.waitcnt = 0 := (h.inv.idle h.idle).waitZero h.idle
  rw [← s.script_writing] at hres hfail ⊢
  exact runN_finished hs rfl rfl hw rfl rfl hres hfail

/-- An undisturbed read runs its whole script and ends OK (R156, R163, R200). -/
theorem ReadyWith.read_finishes {s : State} {reg : ClockReg} (h : ReadyWith s (encode (.readOf reg)))
    (hres : s.noResetFor (1 + scriptCycles s.cfg (readScriptFrom s reg)) = true)
    (hfail : s.noFailFor (actionCount (readScriptFrom s reg))) :
    ∃ t, runN (1 + scriptCycles s.cfg (readScriptFrom s reg)) s = .next t ∧
      Finished (s.reading reg) t (readScriptFrom s reg) := by
  have hr : s.resetNow = false := State.resetNow_of_noResetFor hres (by omega)
  have hs : step s = .next (s.reading reg) := (h.step_eq (by cases reg <;> rfl) hr).trans (exec_readOf reg _)
  have hw : s.waitcnt = 0 := (h.inv.idle h.idle).waitZero h.idle
  rw [← s.script_reading] at hres hfail ⊢
  exact runN_finished hs rfl rfl hw rfl rfl hres hfail

/-! ## The frame (R165) -/

/-- The events of a written byte: eight clock pulses, at whose rises the data line carries its bits (R148, R149). -/
theorem wbyte_events (o : BitOrder) (x : Byte) (bits : List Bool) :
    let es := (wbyte o x).map (eventOf bits)
    sclkPulses es = 8 ∧ drivesOf .ce es = [] ∧ bitsAtRises false false es = bitsLsbFirst x := by
  intro es
  have hclock : drivesOf .sclk es = (List.replicate 8 [true, false]).flatten := rfl
  refine ⟨by rw [sclkPulses, hclock]; decide, rfl, ?_⟩
  simp only [es, wbyte_eq]
  rfl

/-- The events of the read byte: eight clock pulses (R150, R151). -/
theorem rbyte_events (w : Wiring) (bits : List Bool) :
    let es := (turnIn w ++ rbyte).map (eventOf bits)
    sclkPulses es = 8 ∧ drivesOf .ce es = [] := by
  intro es
  have hclock : drivesOf .sclk es = (List.replicate 8 [true, false]).flatten := by cases w <;> rfl
  refine ⟨by rw [sclkPulses, hclock]; decide, ?_⟩
  cases w <;> rfl

/-- The events up to the command byte: CE rises without a clock pulse (R146, R147). -/
theorem opening_events (fix : Bool) (bits : List Bool) :
    let es := (fixup fix ++ prologue).map (eventOf bits)
    drivesOf .ce es = [true] ∧ sclkPulses es = 0 := by
  cases fix <;> exact ⟨rfl, rfl⟩

/-- A write's events are one frame, with the data byte's bits (R165). -/
theorem frame_writeScript (o : BitOrder) (c d : Byte) (fix : Bool) (bits : List Bool) :
    Frame ((writeScript o c d fix).map (eventOf bits)) (bitsLsbFirst c) (some (bitsLsbFirst d)) := by
  obtain ⟨hce, hpulses⟩ := opening_events fix bits
  obtain ⟨hcmd, hcmdCe, hcmdBits⟩ := wbyte_events o c bits
  obtain ⟨hdata, hdataCe, hdataBits⟩ := wbyte_events o d bits
  refine ⟨_, _, _, epilogue.map (eventOf bits), by simp only [writeScript, List.map_append], hce, hpulses, hcmd, hcmdCe,
    hcmdBits, hdata, hdataCe, fun _ h => Option.some.inj h ▸ hdataBits, rfl, rfl⟩

/-- A read's events are one frame (R165). -/
theorem frame_readScript (w : Wiring) (o : BitOrder) (c : Byte) (fix : Bool) (bits : List Bool) :
    Frame ((readScript w o c fix).map (eventOf bits)) (bitsLsbFirst c) none := by
  obtain ⟨hce, hpulses⟩ := opening_events fix bits
  obtain ⟨hcmd, hcmdCe, hcmdBits⟩ := wbyte_events o c bits
  obtain ⟨hdata, hdataCe⟩ := rbyte_events w bits
  refine ⟨_, _, _, (turnOut w ++ epilogue).map (eventOf bits), by simp only [readScript, List.map_append, List.append_assoc],
    hce, hpulses, hcmd, hcmdCe, hcmdBits, hdata, hdataCe, fun _ h => (nomatch h), ?_, ?_⟩ <;> cases w <;> rfl

/-- Settles O50: the transaction runs its whole script, and the script's events are one frame. -/
theorem completedTransactionIsOneFrame : Obligations.CompletedTransactionIsOneFrame := by
  intro s reg _
  constructor
  · intro d h ops n hres hfail
    obtain ⟨t, hrun, hfin⟩ := h.write_finishes hres hfail
    obtain ⟨bits, -, htrace⟩ := hfin.trace
    rw [hfin.result rfl] at htrace
    exact ⟨t, _, hrun, htrace, frame_writeScript ..⟩
  · intro h ops n hres hfail
    obtain ⟨t, hrun, hfin⟩ := h.read_finishes hres hfail
    obtain ⟨bits, -, htrace⟩ := hfin.trace
    exact ⟨t, _, hrun, htrace, frame_readScript ..⟩

end Sys2Proof.Machine
end

section
/-! PROOFS. Accepting a transaction: what it latches, and what it leaves as it was (41_transactions.md R200, R201). -/

namespace Sys2Proof.Machine

/-- The fix-up is taken exactly where the shared line is not an output (R147). -/
theorem State.needsFix_iff (s : State) : s.needsFix = true ↔ s.cfg.wiring = .shared ∧ s.ioDir ≠ .out := by
  rw [s.needsFix_eq, decide_eq_true_iff]

/-- A request word is its operation times 256 and its operand (R100). -/
theorem reqWord_toNat (op opd : Byte) : (reqWord op opd).toNat = op.toNat * 256 + opd.toNat := by
  rw [reqWord_eq_ofNat, BitVec.toNat_ofNat]
  exact Nat.mod_eq_of_lt (by omega)

/-- A request whose operation is 0x80 at least starts a read or a write (R101). -/
theorem exec_of_transaction {i : Instr} (hop : 0x80 ≤ (opField (encode i)).toNat) (s : State) :
    (∃ w c, exec i s = .next (s.acceptRead w c)) ∨ ∃ w c d, exec i s = .next (s.acceptWrite w c d) := by
  cases i with
  | bcdenc | bcddec | addrenc | brev => simp [encode, opField_reqWord] at hop
  | rdSec | rdMin | rdHour | rdDate | rdMonth | rdDay | rdYear => exact .inl ⟨_, _, rfl⟩
  | wrSec d | wrMin d | wrHour d | wrDate d | wrMonth d | wrDay d | wrYear d => exact .inr ⟨_, _, d, rfl⟩

/-- An accepted transaction is at the start of its script (R200, R201). -/
theorem exec_transaction_starts {i : Instr} (hop : 0x80 ≤ (opField (encode i)).toNat) {s t : State} (hx : exec i s = .next t) :
    t.mode = .busy ∧ t.upc = 0 := by
  rcases exec_of_transaction hop s with ⟨w, c, he⟩ | ⟨w, c, d, he⟩ <;>
    obtain rfl := Host.Outcome.next.inj (he.symm.trans hx) <;>
    exact ⟨rfl, rfl⟩

/-- A write's operation is 0x80 at least (R101). -/
theorem opField_writeOf_ge (reg : ClockReg) (d : Byte) : 0x80 ≤ (opField (encode (.writeOf reg d))).toNat := by
  rw [encode_writeOf, opField_reqWord, cmdTable_toNat]
  omega

/-- A read's operation is 0x80 at least (R101). -/
theorem opField_readOf_ge (reg : ClockReg) : 0x80 ≤ (opField (encode (.readOf reg))).toNat := by
  rw [encode_readOf, opField_reqWord, cmdTable_toNat]
  omega

/-- Settles O13: the accepted read's fields, with the command table as a formula. -/
theorem readAcceptanceLatchesItsCommand : Obligations.ReadAcceptanceLatchesItsCommand := by
  intro reg s _
  refine ⟨_, exec_readOf reg s, rfl, rfl, ?_, rfl, rfl, s.needsFix_iff, rfl, rfl, _, ?_, rfl⟩
  · rw [State.acceptRead_cmd, cmdTable_toNat, Bool.toNat_true, Nat.add_right_comm]
  · rw [encode_readOf, reqWord_toNat, State.acceptRead_cmd]
    simp

/-- Settles O14: the accepted write's fields, with the command table as a formula. -/
theorem writeAcceptanceLatchesCommandAndData : Obligations.WriteAcceptanceLatchesCommandAndData := by
  intro reg d s _
  refine ⟨_, exec_writeOf reg d s, rfl, rfl, cmdTable_toNat reg false, rfl, rfl, s.needsFix_iff, rfl, rfl, _, ?_, rfl⟩
  rw [encode_writeOf, reqWord_toNat, State.acceptWrite_cmd]

/-- Settles O15: a transaction is accepted as a read or as a write, and neither moves any of these. -/
theorem transactionAcceptanceFrame : Obligations.TransactionAcceptanceFrame := by
  intro i s t hop hx
  rcases exec_of_transaction hop s with ⟨w, c, he⟩ | ⟨w, c, d, he⟩ <;>
    obtain rfl := Host.Outcome.next.inj (he.symm.trans hx) <;>
    exact ⟨⟨rfl, rfl, rfl, rfl⟩, ⟨rfl, rfl, rfl, rfl, rfl, rfl⟩, rfl, rfl, rfl, rfl, rfl⟩

end Sys2Proof.Machine
end
section
/-! PROOFS. An undisturbed transaction from its acceptance to its answer: what its script leaves in the block, the bits it has
sampled, and every cycle on the way (41_transactions.md R200, R201, 40_bus_engine.md R155 to R163, R352). -/

namespace Sys2Proof.Machine

/-! ## The bits of a byte as a list -/

/-- The `i`-th of a byte's bits. -/
theorem bitsLsbFirst_getElem? (x : Byte) (i : Fin 8) : (bitsLsbFirst x)[i.val]? = some (bitOf x i) := by
  rw [bitsLsbFirst, List.getElem?_map, bitPositions_getElem?]
  rfl

/-- The bits of the number that a list of bits gives, least significant first. -/
theorem testBit_foldr (bs : List Bool) (k : Nat) :
    (bs.foldr (fun b n => 2 * n + Bool.toNat b) 0).testBit k = bs.getD k false := by
  induction bs generalizing k with
  | nil => simp
  | cons b bs ih =>
    rw [List.foldr_cons, ← Nat.bit_val]
    cases k with
    | zero => simp
    | succ k => rw [Nat.testBit_bit_succ, ih, List.getD_cons_succ]

/-- A byte is the byte of its bits. -/
theorem byteOfBits_bitsLsbFirst (x : Byte) : byteOfBits (bitsLsbFirst x) = x := by
  refine BitVec.eq_of_getLsbD_eq fun i hi => ?_
  have htake : (bitsLsbFirst x).take 8 = bitsLsbFirst x := rfl
  rw [byteOfBits, BitVec.getLsbD_ofNat, htake, testBit_foldr, List.getD_eq_getElem?_getD, bitsLsbFirst_getElem? x ⟨i, hi⟩]
  simp [hi, bitOf]

/-- Two bytes with the same bits are the same. -/
theorem eq_of_bitOf_eq {x y : Byte} (h : ∀ i, bitOf x i = bitOf y i) : x = y :=
  BitVec.eq_of_getLsbD_eq fun i hi => h ⟨i, hi⟩

/-- The event of a sample that returned its bit of `x`. -/
theorem eventOf_sample (x : Byte) (i : Fin 8) : eventOf (bitsLsbFirst x) (.sample i) = .sample i (bitOf x i) := by
  rw [eventOf, List.getD_eq_getElem?_getD, bitsLsbFirst_getElem?]
  rfl

/-! ## The samples of a list of micro-ops -/

/-- The position that a micro-op samples. -/
def MicroOp.sampled? : MicroOp → Option (Fin 8)
  | .sample i => some i
  | _         => none

/-- The positions that micro-ops sample, in order. -/
def sampledIn (ops : List MicroOp) : List (Fin 8) := ops.filterMap MicroOp.sampled?

/-- The positions sampled are those of the `Sample` micro-ops. -/
theorem mem_sampledIn {ops : List MicroOp} {i : Fin 8} : i ∈ sampledIn ops ↔ .sample i ∈ ops := by
  rw [sampledIn, List.mem_filterMap]
  constructor
  · rintro ⟨op, hop, hi⟩
    cases op with
    | sample j => exact Option.some.inj hi ▸ hop
    | _ => cases hi
  · exact fun h => ⟨_, h, rfl⟩

/-- The positions that two lists of micro-ops sample. -/
theorem sampledIn_append (a b : List MicroOp) : sampledIn (a ++ b) = sampledIn a ++ sampledIn b :=
  List.filterMap_append

/-- A written byte samples nothing (R149). -/
theorem sampledIn_wbyte (o : BitOrder) (x : Byte) : sampledIn (wbyte o x) = [] := rfl

/-- A write samples nothing (R155). -/
theorem sampledIn_writeScript (o : BitOrder) (c d : Byte) (fix : Bool) : sampledIn (writeScript o c d fix) = [] := by
  simp only [writeScript, sampledIn_append, sampledIn_wbyte]
  cases fix <;> rfl

/-- A read samples each position once, in order (R151, R156). -/
theorem sampledIn_readScript (w : Wiring) (o : BitOrder) (c : Byte) (fix : Bool) :
    sampledIn (readScript w o c fix) = bitPositions := by
  simp only [readScript, sampledIn_append, sampledIn_wbyte]
  cases w <;> cases fix <;> rfl

/-- Micro-ops have the same events with two bytes that agree at the positions they sample. -/
theorem map_eventOf_congr {ops : List MicroOp} {x y : Byte} (h : ∀ i ∈ sampledIn ops, bitOf x i = bitOf y i) :
    ops.map (eventOf (bitsLsbFirst x)) = ops.map (eventOf (bitsLsbFirst y)) := by
  refine List.map_congr_left fun op hop => ?_
  cases op with
  | sample i => rw [eventOf_sample, eventOf_sample, h i (mem_sampledIn.mpr hop)]
  | _ => rfl

/-- Micro-ops that sample nothing have the same events with all bits. -/
theorem map_eventOf_of_not_sampled {ops : List MicroOp} (h : sampledIn ops = []) (bits bits' : List Bool) :
    ops.map (eventOf bits) = ops.map (eventOf bits') := by
  refine List.map_congr_left fun op hop => ?_
  cases op with
  | sample i => exact absurd (mem_sampledIn.mpr hop) (by simp [h])
  | _ => rfl

/-! ## What performing micro-ops does -/

/-- The response a block has just given, if its request has ended. -/
def State.responseEvents (t : State) : List Event := if t.mode = .idle then [.respond t.status t.result] else []

/-- `t` is `s` after the micro-ops `ops` of its running script, none of which failed (R157 to R164). -/
structure Performed (s t : State) (ops : List MicroOp) : Prop where
  ioOut       : t.ioOut = levelAfter .data ops s.ioOut
  latches     : SameLatches s t
  cfg         : t.cfg = s.cfg
  host        : t.host = s.host
  refusedMark : t.refusedMark = s.refusedMark
  /-- One answer of the environment went to each sample. -/
  samples     : t.samples = s.samples.drop (sampledIn ops).length
  /-- What was not sampled stays. -/
  rxKept      : ∀ i, i ∉ sampledIn ops → bitOf t.rx i = bitOf s.rx i
  /-- The `k`-th placed answer is the bit at the `k`-th position sampled. -/
  rxPlaced    : ∀ (k : Nat) (i : Fin 8) (b : Bool), (sampledIn ops)[k]? = some i → s.samples[k]? = some b → bitOf t.rx i = b
  trace       : t.trace = s.trace ++ ops.map (eventOf (bitsLsbFirst t.rx)) ++ t.responseEvents

/-- What was performed does not depend on the reset inputs that pass. -/
theorem Performed.tickBy {s t : State} {ops : List MicroOp} (h : Performed s t ops) (n : Nat) : Performed s (t.tickBy n) ops :=
  { h with latches := ⟨h.latches.kind, h.latches.cmd, h.latches.wdata, h.latches.fix⟩ }

/-- Micro-ops performed in two stretches, where each position is sampled once at most. -/
theorem Performed.trans {s u t : State} {a b : List MicroOp} (h : Performed s u a) (hu : u.mode = .busy) (h' : Performed u t b)
    (hnd : (sampledIn (a ++ b)).Nodup) : Performed s t (a ++ b) := by
  rw [sampledIn_append] at hnd
  have hkept (i : Fin 8) (hi : i ∈ sampledIn a) : bitOf t.rx i = bitOf u.rx i :=
    h'.rxKept i (List.disjoint_of_nodup_append hnd hi)
  exact {
    ioOut := by rw [h'.ioOut, h.ioOut, levelAfter_append]
    latches := ⟨h'.latches.kind.trans h.latches.kind, h'.latches.cmd.trans h.latches.cmd,
      h'.latches.wdata.trans h.latches.wdata, h'.latches.fix.trans h.latches.fix⟩
    cfg := h'.cfg.trans h.cfg
    host := h'.host.trans h.host
    refusedMark := h'.refusedMark.trans h.refusedMark
    samples := by rw [h'.samples, h.samples, List.drop_drop, sampledIn_append, List.length_append]
    rxKept := fun i hi => by
      rw [sampledIn_append, List.mem_append, not_or] at hi
      exact (h'.rxKept i hi.2).trans (h.rxKept i hi.1)
    rxPlaced := fun k i b hk hb => by
      rw [sampledIn_append] at hk
      by_cases hlt : k < (sampledIn a).length
      · rw [List.getElem?_append_left hlt] at hk
        exact (hkept i (List.mem_of_getElem? hk)).trans (h.rxPlaced k i b hk hb)
      · rw [List.getElem?_append_right (Nat.not_lt.mp hlt)] at hk
        refine h'.rxPlaced _ i b hk ?_
        rw [h.samples, List.getElem?_drop, Nat.add_sub_cancel' (Nat.not_lt.mp hlt), hb]
    trace := by
      have hnone : u.responseEvents = [] := by simp [State.responseEvents, hu]
      rw [h'.trace, h.trace, hnone, map_eventOf_congr fun i hi => (hkept i hi).symm]
      simp }

/-- Micro-ops that sample nothing leave `rx` and the environment's samples (R155). -/
theorem Performed.of_not_sampled {s t : State} {ops : List MicroOp} (h : Performed s t ops) (hnone : sampledIn ops = []) :
    t.rx = s.rx ∧ t.samples = s.samples :=
  ⟨eq_of_bitOf_eq fun i => h.rxKept i (by simp [hnone]), by rw [h.samples, hnone]; rfl⟩

/-! ## One micro-op -/

/-- A drawn sample uses up the first placed answer. -/
theorem State.drawSample_samples (s : State) : s.drawSample.2.samples = s.samples.tail := by
  cases hs : s.samples <;> simp [State.drawSample, hs]

/-- A sample that does not fail captures the bit of its event, the first placed answer if there is one (R159, R160). -/
theorem execSample_captures {s : State} {i : Fin 8} (hf : s.actionFails.1 = false) :
    ∃ b, OpCompleted s (execMicroOp (.sample i) s) (.sample i b) ∧
      (∀ j, bitOf (execMicroOp (.sample i) s).rx j = if j = i then b else bitOf s.rx j) ∧
      (execMicroOp (.sample i) s).samples = s.samples.tail ∧ ∀ b', s.samples[0]? = some b' → b = b' := by
  obtain ⟨-, ev, hc, -, -, hev⟩ := execMicroOp_action_completes (op := .sample i) rfl hf
  obtain ⟨rfl, hrx⟩ := hev i rfl
  refine ⟨_, hc, fun j => hrx ▸ bitOf_capture .., ?_, fun b' hb' => ?_⟩
  · simp [execMicroOp, execSample_completes _ hf, State.drawSample_samples]
  · cases hs : s.samples with
    | nil => simp [hs] at hb'
    | cons b'' rest =>
      rw [State.drawSample_of_placed ((State.actionFails_samples s).trans hs)]
      simpa [hs] using hb'

/-- A whole micro-op other than a sample takes no answer of the environment's samples (R160). -/
theorem wholeMicroOp_samples {s : State} {op : MicroOp} (hf : op.isAction = true → s.actionFails.1 = false)
    (hop : ∀ i, op ≠ .sample i) : (wholeMicroOp op s).samples = s.samples := by
  by_cases ha : op.isAction = true
  · rw [wholeMicroOp_action ha, execMicroOp_samples (hf ha) hop]
  · cases op with
    | wait p => simp [wholeMicroOp, finishWait]
    | _ => exact absurd rfl ha

/-- A micro-op of the running script completes with its event, and its answer where it has one. -/
theorem OpCompleted.trace_eq {s t : State} {ev : Event} (hb : s.mode = .busy) (hc : OpCompleted s t ev) :
    t.trace = s.trace ++ [ev] ++ t.responseEvents := by
  by_cases hn : s.upc + 1 = s.script.length
  · obtain ⟨hm, -, hst, -, -, -, ht⟩ := hc.ends hn
    simp [ht, State.responseEvents, hm, hst]
  · obtain ⟨hm, -, -, ht⟩ := hc.goesOn hn
    simp [ht, State.responseEvents, hm, hb]

/-- A whole sample that does not fail is performed. -/
theorem wholeMicroOp_sample_performed {s : State} {i : Fin 8} (hb : s.mode = .busy) (hf : s.actionFails.1 = false) :
    Performed s (wholeMicroOp (.sample i) s) [.sample i] := by
  obtain ⟨he, bits, -, hc⟩ := wholeMicroOp_completes (op := .sample i) fun _ => hf
  obtain ⟨b, hev, hrx, hs, hplaced⟩ := execSample_captures (i := i) hf
  have hi : bitOf (wholeMicroOp (.sample i) s).rx i = b := (hrx i).trans (if_pos rfl)
  refine ⟨he.ioOut, hc.latches, hc.cfg, hc.host, hc.refusedMark, hs.trans List.drop_one.symm, fun j hj => ?_,
    fun k j b' hk hb' => ?_, ?_⟩
  · exact (hrx j).trans (if_neg fun h => hj (List.mem_singleton.mpr h))
  · cases k with
    | zero =>
      obtain rfl : i = j := Option.some.inj hk
      exact hi.trans (hplaced b' hb')
    | succ k => cases hk
  · rw [List.map_singleton, eventOf_sample, hi]
    exact hev.trace_eq hb

/-- A whole micro-op that does not fail is performed. -/
theorem wholeMicroOp_performed {s : State} {op : MicroOp} (hb : s.mode = .busy)
    (hf : op.isAction = true → s.actionFails.1 = false) : Performed s (wholeMicroOp op s) [op] := by
  by_cases hop : ∃ i, op = .sample i
  · obtain ⟨i, rfl⟩ := hop
    exact wholeMicroOp_sample_performed hb (hf rfl)
  · have hop (i : Fin 8) : op ≠ .sample i := fun h => hop ⟨i, h⟩
    have hnone : sampledIn [op] = [] := List.eq_nil_iff_forall_not_mem.mpr fun i hi =>
      hop i (List.mem_singleton.mp (mem_sampledIn.mp hi)).symm
    obtain ⟨he, bits, -, hc⟩ := wholeMicroOp_completes hf
    refine ⟨he.ioOut, hc.latches, hc.cfg, hc.host, hc.refusedMark, ?_, fun j _ => congrArg (bitOf · j) (he.rx hop), ?_, ?_⟩
    · rw [hnone]
      exact wholeMicroOp_samples hf hop
    · simp [hnone]
    · rw [map_eventOf_of_not_sampled hnone _ bits]
      exact hc.trace_eq hb

/-! ## The rest of a script -/

/-- A request ended with status OK: the response of a completed transaction (R163). -/
structure AnsweredOk (t : State) : Prop where
  mode     : t.mode = .idle
  status   : t.status = .ok
  result   : t.result = t.completionData
  rspValid : t.rspValid = true
  ceUndef  : t.ceUndef = false

/-- The last micro-op of a script ends the request (R163). -/
theorem Ahead.answers {s : State} {op : MicroOp} (h : Ahead s [op] []) : AnsweredOk (wholeMicroOp op s) := by
  obtain ⟨-, bits, -, hc⟩ := wholeMicroOp_completes h.not_fails
  obtain ⟨hmode, -, hstatus, hresult, hvalid, hundef, -⟩ := hc.ends h.script_length.symm
  refine ⟨hmode, hstatus, hresult.trans ?_, hvalid, hundef⟩
  rw [State.completionData, hc.latches.kind]
  cases s.kind <;> rfl

/-- The rest of a script, in which each position is sampled once at most, is performed and answered. -/
theorem Ahead.performed {s : State} {op : MicroOp} {ops : List MicroOp} (h : Ahead s (op :: ops) [])
    (hnd : (sampledIn (op :: ops)).Nodup) :
    Performed s (performAll (op :: ops) s) (op :: ops) ∧ AnsweredOk (performAll (op :: ops) s) := by
  induction ops generalizing s op with
  | nil => exact ⟨wholeMicroOp_performed h.busy h.not_fails, h.answers⟩
  | cons op' ops ih =>
    have hnext : Ahead (wholeMicroOp op s) (op' :: ops) [] := h.next (by simp)
    rw [← List.singleton_append] at hnd ⊢
    obtain ⟨hperf, hans⟩ := ih hnext (List.Nodup.of_append_right (sampledIn_append .. ▸ hnd))
    exact ⟨(wholeMicroOp_performed h.busy h.not_fails).trans hnext.busy hperf hnd, hans⟩

/-! ## The cycles on the way -/

/-- `u` is `s` in the course of the same transaction: no response has been given, and no request taken (R41, R42). -/
structure StillBusy (s u : State) : Prop where
  busy     : u.mode = .busy
  rspValid : u.rspValid = s.rspValid
  host     : u.host = s.host

/-- Until its last cycle, a micro-op moves the counter only (R161). -/
theorem runN_within_microOp {s : State} {op : MicroOp} {n : Nat} (hb : s.mode = .busy) (ho : s.currentOp = some op)
    (hres : s.noResetFor n = true) {k : Nat} (hk : k < cyclesLeft s) (hn : k ≤ n) :
    ∃ u, runN k s = .next u ∧ StillBusy s u := by
  cases k with
  | zero => exact ⟨s, rfl, hb, rfl, rfl⟩
  | succ k =>
    cases op with
    | wait p =>
      rw [cyclesLeft_wait hb ho] at hk
      exact ⟨_, runN_wait_counts hb ho hres k (by omega) (by omega), hb, rfl, rfl⟩
    | _ =>
      rw [cyclesLeft_action hb ho rfl] at hk
      omega

/-- A transaction that runs on through two stretches. -/
theorem StillBusy.trans {s u v : State} (h : StillBusy s u) (h' : StillBusy u v) : StillBusy s v :=
  ⟨h'.busy, h'.rspValid.trans h.rspValid, h'.host.trans h.host⟩

/-- The cycles of a micro-op that is not the script's last lead to the next ones, with the transaction still running. -/
theorem Ahead.passes {s : State} {op : MicroOp} {ops rest : List MicroOp} (h : Ahead s (op :: ops) rest)
    (hne : ops ++ rest ≠ []) {n : Nat} (hres : s.noResetFor (opCycles s.cfg op + n) = true) :
    ∃ u, Machine.runN (opCycles s.cfg op) s = .next u ∧ Ahead u ops rest ∧ u.noResetFor n = true ∧ u.cfg = s.cfg ∧
      StillBusy s u := by
  obtain ⟨he, bits, -, hc⟩ := wholeMicroOp_completes h.not_fails
  have hnext := h.next hne
  have hlen := h.script_length
  have hpos := List.length_pos_iff.mpr hne
  obtain ⟨-, -, hside, -⟩ := hc.goesOn (by omega)
  rw [← h.cyclesLeft] at hres ⊢
  refine ⟨_, runN_wholeMicroOp h.busy h.currentOp (State.noResetFor_le hres (Nat.le_add_right ..)), hnext.tickBy _, ?_, hc.cfg,
    hnext.busy, hside.rspValid, hc.host⟩
  rw [State.noResetFor, State.tickBy, he.resets]
  exact State.noResetFor_tickBy hres

/-- Before the last cycle of the micro-ops ahead, the transaction still runs (R41, R352). -/
theorem Ahead.stillBusy {s : State} {ops rest : List MicroOp} (h : Ahead s ops rest)
    (hres : s.noResetFor (scriptCycles s.cfg ops) = true) {k : Nat} (hk : k < scriptCycles s.cfg ops) :
    ∃ u, Machine.runN k s = .next u ∧ StillBusy s u := by
  induction ops generalizing s k with
  | nil => cases hk
  | cons op ops ih =>
    by_cases hlt : k < opCycles s.cfg op
    · exact runN_within_microOp h.busy h.currentOp hres (h.cyclesLeft ▸ hlt) hk.le
    · obtain ⟨j, rfl⟩ := Nat.exists_eq_add_of_le (Nat.not_lt.mp hlt)
      have hj : j < scriptCycles s.cfg ops := Nat.lt_of_add_lt_add_left hk
      have hne : ops ++ rest ≠ [] := by
        intro he
        obtain ⟨rfl, -⟩ := List.append_eq_nil_iff.mp he
        cases hj
      obtain ⟨u, hu, hahead, hres', hcfg, hstill⟩ := h.passes hne hres
      rw [← hcfg] at hj hres'
      obtain ⟨v, hv, hstill'⟩ := ih hahead hres' hj
      exact ⟨v, (runN_add j hu).trans hv, hstill.trans hstill'⟩

/-! ## The whole transaction -/

/-- The first cycle from `s` accepts a request, leaving the block in `a` at the start of its script `ops`, and nothing will
disturb it. -/
structure Launched (s a : State) (ops : List MicroOp) : Prop where
  accepted : runN 1 s = .next a
  ahead    : Ahead a ops []
  noReset  : a.noResetFor (scriptCycles s.cfg ops) = true
  cfg      : a.cfg = s.cfg
  inv      : Inv a
  nonempty : ops ≠ []

/-- Until its last cycle a transaction runs on (R41, R352). -/
theorem Launched.stillBusy {s a : State} {ops : List MicroOp} (h : Launched s a ops) {k : Nat} (hpos : 0 < k)
    (hk : k < 1 + scriptCycles s.cfg ops) :
      ∃ u, runN k s = .next u ∧ u.mode = .busy ∧ u.rspValid = a.rspValid ∧ u.host = a.host := by
  obtain ⟨j, rfl⟩ := Nat.exists_eq_add_of_le hpos
  rw [runN_add j h.accepted]
  obtain ⟨u, hu, hstill⟩ := h.ahead.stillBusy (h.cfg ▸ h.noReset) (h.cfg ▸ Nat.lt_of_add_lt_add_left hk)
  exact ⟨u, hu, hstill.busy, hstill.rspValid, hstill.host⟩

/-- In its last cycle a transaction has performed its script and is answered (R163, R352). -/
theorem Launched.ends {s a : State} {ops : List MicroOp} (h : Launched s a ops) (hnd : (sampledIn ops).Nodup) :
    ∃ t, runN (1 + scriptCycles s.cfg ops) s = .next t ∧ Performed a t ops ∧ AnsweredOk t ∧ Inv t := by
  have hrun := h.ahead.runN (h.cfg ▸ h.noReset)
  obtain ⟨op, ops, rfl⟩ := List.exists_cons_of_ne_nil h.nonempty
  obtain ⟨hperf, hans⟩ := h.ahead.performed hnd
  rw [h.cfg] at hrun
  exact ⟨_, (runN_add _ h.accepted).trans hrun, hperf.tickBy _,
    ⟨hans.mode, hans.status, hans.result, hans.rspValid, hans.ceUndef⟩, h.inv.runN hrun⟩

/-- An accepted transaction is launched, where no reset event and no failure comes. -/
theorem ReadyWith.launched {s a : State} {i : Instr} (h : ReadyWith s (encode i)) (hwf : i.wf = true)
    (hop : 0x80 ≤ (opField (encode i)).toNat) (hx : exec i s.taken = .next a)
    (hres : s.noResetFor (1 + scriptCycles s.cfg a.script) = true) (hfail : s.noFailFor (actionCount a.script)) :
    Launched s a a.script := by
  have hs : step s = .next a := (h.step_eq hwf (State.resetNow_of_noResetFor hres (by omega))).trans hx
  obtain ⟨-, hin, -, -, -, -, hwait⟩ := transactionAcceptanceFrame i s.taken a hop hx
  obtain ⟨hbusy, hupc⟩ := exec_transaction_starts hop hx
  exact {
    accepted := (runN_one s).trans hs
    ahead := ⟨hbusy, hwait.trans ((h.inv.idle h.idle).waitZero h.idle), by rw [hupc]; simp,
      State.noFailFor_congr hin.cfg hin.fails hfail⟩
    noReset := by
      rw [State.noResetFor, hin.resets]
      exact State.noResetFor_tickBy hres
    cfg := hin.cfg
    inv := invariantKeptByEveryStep s a h.inv hs
    nonempty := List.ne_nil_of_length_pos (script_length_pos a) }

/-- An undisturbed write is launched (R201). -/
theorem ReadyWith.write_launched {s : State} {reg : ClockReg} {d : Byte} (h : ReadyWith s (encode (.writeOf reg d)))
    (hres : s.noResetFor (1 + scriptCycles s.cfg (writeScriptFrom s reg d)) = true)
    (hfail : s.noFailFor (actionCount (writeScriptFrom s reg d))) :
    Launched s (s.writing reg d) (writeScriptFrom s reg d) := by
  rw [← s.script_writing] at hres hfail ⊢
  exact h.launched (by cases reg <;> rfl) (opField_writeOf_ge reg d) (exec_writeOf reg d s.taken) hres hfail

/-- An undisturbed read is launched (R200). -/
theorem ReadyWith.read_launched {s : State} {reg : ClockReg} (h : ReadyWith s (encode (.readOf reg)))
    (hres : s.noResetFor (1 + scriptCycles s.cfg (readScriptFrom s reg)) = true)
    (hfail : s.noFailFor (actionCount (readScriptFrom s reg))) :
    Launched s (s.reading reg) (readScriptFrom s reg) := by
  rw [← s.script_reading] at hres hfail ⊢
  exact h.launched (by cases reg <;> rfl) (opField_readOf_ge reg) (exec_readOf reg s.taken) hres hfail

/-- An answered block at rest: its lines and its sequencer (R49, R154, R168). -/
theorem AnsweredOk.atRest {t : State} (h : AnsweredOk t) (hi : Inv t) :
    t.ce = .low ∧ t.sclk = .low ∧ t.ioDir = .out ∧ t.upc = 0 ∧ t.waitcnt = 0 := by
  have r := hi.idle h.mode
  obtain ⟨hce, hsclk, hdir⟩ := r.atRest h.ceUndef
  exact ⟨hce, hsclk, hdir, r.upcZero, r.waitZero h.mode⟩

/-- What an answered block has performed ends, in its trace, with the response. -/
theorem Performed.trace_answered {s t : State} {ops : List MicroOp} (h : Performed s t ops) (ha : AnsweredOk t) :
    t.trace = s.trace ++ ops.map (eventOf (bitsLsbFirst t.rx)) ++ [.respond .ok t.result] := by
  rw [h.trace, State.responseEvents, if_pos ha.mode, ha.status]

/-- After a write the data line is at the data byte's last bit (R148, R155). -/
theorem levelAfter_writeScript_data (o : BitOrder) (c d : Byte) (fix : Bool) (l : Level) :
    levelAfter .data (writeScript o c d fix) l = if d.getLsbD 7 then .high else .low := by
  rw [writeScript, wbyte_eq o d]
  simp only [levelAfter_append]
  show Level.ofBit (d.getLsbD 7) = _
  cases d.getLsbD 7 <;> rfl

/-- After a read the data line is undefined with `SHARED`, and at the command byte's last bit with `SPLIT` (R156, R158, R169). -/
theorem levelAfter_readScript_data (w : Wiring) (o : BitOrder) (reg : ClockReg) (fix : Bool) (l : Level) :
    levelAfter .data (readScript w o (cmdTable reg true) fix) l = if w = .shared then .x else .high := by
  rw [readScript, wbyte_eq o]
  simp only [levelAfter_append]
  cases w with
  | shared => rfl
  | split => cases reg <;> rfl

/-- After a read, the bits of `rx` are those sampled, the placed ones as far as they go (R151, R160). -/
theorem Performed.sampledBits {s t : State} {ops : List MicroOp} (h : Performed s t ops) (hops : sampledIn ops = bitPositions) :
    SampledBits s.samples (bitsLsbFirst t.rx) := by
  refine ⟨rfl, fun k b hk hb => ?_⟩
  have hbit : bitOf t.rx ⟨k, hk⟩ = b := h.rxPlaced k ⟨k, hk⟩ b (hops ▸ bitPositions_getElem? ⟨k, hk⟩) hb
  rw [← hbit]
  exact bitsLsbFirst_getElem? t.rx ⟨k, hk⟩

/-- Settles O48: the write is launched, still runs before its last cycle, and has then performed its script, which samples
nothing, and answered. -/
theorem undisturbedWriteCompletes : Obligations.UndisturbedWriteCompletes := by
  intro s reg d h ops n hres hfail
  have hl : Launched s (s.writing reg d) ops := h.write_launched hres hfail
  have hnone : sampledIn ops = [] := sampledIn_writeScript ..
  refine ⟨⟨_, hl.accepted, rfl, rfl, rfl, rfl, s.needsFix_iff, rfl⟩, fun k hpos hk => hl.stillBusy hpos hk, ?_⟩
  obtain ⟨t, hrun, hperf, hans, hinv⟩ := hl.ends (hnone ▸ List.nodup_nil)
  obtain ⟨hce, hsclk, hdir, hupc, hwait⟩ := hans.atRest hinv
  have hresult : t.result = 0x00 := by rw [hans.result, State.completionData, hperf.latches.kind]; rfl
  obtain ⟨hrx, hsamples⟩ := hperf.of_not_sampled hnone
  have hfix : t.fix = s.needsFix := hperf.latches.fix
  refine ⟨t, hrun, hans.mode, hans.status, hresult, hans.rspValid, hans.ceUndef, hce, hsclk, hdir,
    hperf.ioOut.trans (levelAfter_writeScript_data ..), hrx, hperf.latches.kind, hperf.latches.cmd, hperf.latches.wdata,
    hfix ▸ s.needsFix_iff, hupc, hwait, hperf.refusedMark, hsamples, hperf.host, ?_⟩
  rw [map_eventOf_of_not_sampled hnone [] (bitsLsbFirst t.rx), ← hresult]
  exact hperf.trace_answered hans

/-- Settles O49: the read is launched, still runs before its last cycle, and has then performed its script, which samples each
position once, and answered with `rx`. -/
theorem undisturbedReadCompletes : Obligations.UndisturbedReadCompletes := by
  intro s reg h ops n hres hfail
  have hl : Launched s (s.reading reg) ops := h.read_launched hres hfail
  have hall : sampledIn ops = bitPositions := sampledIn_readScript ..
  refine ⟨⟨_, hl.accepted, rfl, rfl, rfl, rfl, rfl, s.needsFix_iff, rfl⟩, fun k hpos hk => hl.stillBusy hpos hk, ?_⟩
  obtain ⟨t, hrun, hperf, hans, hinv⟩ := hl.ends (hall ▸ by decide)
  obtain ⟨hce, hsclk, hdir, hupc, hwait⟩ := hans.atRest hinv
  have hresult : t.result = t.rx := by rw [hans.result, State.completionData, hperf.latches.kind]; rfl
  have hsamples : t.samples = s.samples.drop 8 := by rw [hperf.samples, hall]; rfl
  have hfix : t.fix = s.needsFix := hperf.latches.fix
  have htrace := hperf.trace_answered hans
  rw [hresult] at htrace
  refine ⟨t, bitsLsbFirst t.rx, hrun, hperf.sampledBits hall, hans.mode, hans.status, ?_, hans.rspValid, hans.ceUndef, hce,
    hsclk, hdir, hperf.latches.kind, hperf.latches.cmd, hperf.latches.wdata, ?_, hfix ▸ s.needsFix_iff, hupc, hwait,
    hperf.ioOut.trans (levelAfter_readScript_data ..), hperf.refusedMark, hsamples, hperf.host, ?_⟩ <;>
    rw [byteOfBits_bitsLsbFirst]
  · exact hresult
  · exact htrace

end Sys2Proof.Machine
end

section
/-! PROOFS. The framer: the command table's formulas, the answers of `ADDRENC` and `BREV`, and that the bit order a block
implements changes no step of it (42_framer.md R230 to R243). -/

namespace Sys2Proof.Machine

/-! ## The command table -/

/-- Settles O6, row by row of the table. -/
theorem commandTableIsTheFormula : Obligations.CommandTableIsTheFormula := by
  intro reg rd
  cases reg <;> cases rd <;> decide

/-! ## The answers of `ADDRENC` and `BREV` -/

/-- Answering a pure request gives the response and the two events, and moves nothing else (R44, R231, R232). -/
theorem State.answered_answer (s : State) (w : ReqWord) (r : Byte) : Answered s (s.answer w r) w r where
  result      := s.answer_result w r
  status      := s.answer_status w r
  rspValid    := s.answer_rspValid w r
  mode        := s.answer_mode w r
  trace       := (s.answer_trace w r).trans (List.append_assoc ..)
  ceUndef     := s.answer_ceUndef w r
  refusedMark := s.answer_refusedMark w r
  lines       := ⟨rfl, rfl, rfl, rfl⟩
  sequencer   := ⟨⟨rfl, rfl, rfl, rfl⟩, rfl, rfl, rfl⟩
  inputs      := ⟨rfl, rfl, rfl, rfl, rfl, rfl⟩

/-- The word of an `ADDRENC` is 0x0300 and its operand `{0000, reg, rd}` (R102, R231). -/
theorem encode_addrenc_toNat (reg : ClockReg) (rd : Bool) :
    (encode (.addrenc reg rd)).toNat = 0x0300 + 2 * reg.index.toNat + rd.toNat := by
  rw [encode, reqWord_toNat, addrencOperand_toNat, Nat.add_assoc]
  rfl

/-- Settles O9: the answer is the table's byte, whose number is that of R242. -/
theorem addrencAnswersTheCommandByte : Obligations.AddrencAnswersTheCommandByte := by
  intro reg rd s _
  exact ⟨_, exec_addrenc reg rd s, _, _, encode_addrenc_toNat reg rd, cmdTable_toNat reg rd, rfl, s.answered_answer _ _⟩

/-- `BREV` is an involution (R232). -/
theorem reverseByte_reverseByte (x : Byte) : reverseByte (reverseByte x) = x :=
  eq_of_bitOf_eq fun k => by rw [bitOf_reverseByte, bitOf_reverseByte, Fin.rev_rev]

/-- Settles O10: the answer is the reversed byte, and reversing twice gives the byte back. -/
theorem brevAnswersTheReversedByte : Obligations.BrevAnswersTheReversedByte := by
  intro x s _
  have hbit (k : Nat) (hk : k < 8) : (reverseByte x).getLsbD k = x.getLsbD (7 - k) :=
    (bitOf_reverseByte x ⟨k, hk⟩).trans (congrArg x.getLsbD (Nat.succ_sub_succ 7 k))
  refine ⟨_, exec_brev x s, _, _, reqWord_toNat 0x04 x, hbit, s.answered_answer _ _, _, exec_brev _ _, ?_⟩
  rw [State.answer_result, State.answer_result, reverseByte_reverseByte]

/-! ## A block of another bit order -/

/-- `s` in a block that implements the bit order `o` (R7, R240). -/
def State.withBitOrder (s : State) (o : BitOrder) : State := { s with cfg := { s.cfg with bitOrder := o } }

/-- Every bit order captures a sample as bit `i` of `rx` (R159, R241). -/
theorem capture_eq_setBit (o : BitOrder) (rx : Byte) (i : Fin 8) (b : Bool) : capture o rx i b = setBit rx i b :=
  eq_of_bitOf_eq fun k => by rw [bitOf_capture, bitOf_setBit]

/-- The counted cycles do not depend on the bit order (R141). -/
theorem cycles_withBitOrder (cfg : Config) (o : BitOrder) (p : WaitParam) :
    cycles { cfg with bitOrder := o } p = cycles cfg p := by
  cases p <;> rfl

/-- The script has the same micro-ops in either bit order (R149, R241). -/
theorem State.script_withBitOrder (s : State) (o : BitOrder) : (s.withBitOrder o).script = s.script := by
  simp only [State.script, State.withBitOrder, writeScript, readScript, wbyte_eq]

theorem State.currentOp_withBitOrder (s : State) (o : BitOrder) : (s.withBitOrder o).currentOp = s.currentOp := by
  rw [State.currentOp, s.script_withBitOrder]
  rfl

/-- What a draw answers does not depend on the bit order. -/
theorem State.actionFails_withBitOrder (s : State) (o : BitOrder) :
    (s.withBitOrder o).actionFails = (s.actionFails.1, s.actionFails.2.withBitOrder o) := by
  cases ha : s.cfg.lineFailAdmitted <;> cases hf : s.fails <;>
    simp [State.actionFails, State.drawFail, State.withBitOrder, ha, hf]

/-- What a sample answers does not depend on the bit order. -/
theorem State.drawSample_withBitOrder (s : State) (o : BitOrder) :
    (s.withBitOrder o).drawSample = (s.drawSample.1, s.drawSample.2.withBitOrder o) := by
  cases hs : s.samples <;> simp [State.drawSample, State.withBitOrder, hs]

theorem State.abort_withBitOrder (s : State) (o : BitOrder) (op : MicroOp) (kind : ErrKind) (failed : Failed) :
    (s.withBitOrder o).abort op kind failed = (s.abort op kind failed).withBitOrder o := by
  simp only [State.abort_eq, State.withBitOrder]

/-- A micro-op completes alike: the end of the script is at the same position. -/
theorem State.completeMicroOp_withBitOrder (s : State) (o : BitOrder) :
    (s.withBitOrder o).completeMicroOp = s.completeMicroOp.withBitOrder o := by
  rw [State.completeMicroOp, s.script_withBitOrder]
  rcases s.completeMicroOp_cases with ⟨h, he⟩ | ⟨h, he⟩
  · exact (if_pos h).trans (by rw [he]; rfl)
  · exact (if_neg h).trans (by rw [he]; rfl)

/-! ## One cycle of a micro-op in another bit order -/

/-- An action that fails aborts, with what it leaves undefined and the kind it reports (R157 to R159, R305). -/
theorem execMicroOp_of_fails {s : State} {op : MicroOp} (ha : op.isAction = true) (hf : s.actionFails.1 = true) :
    execMicroOp op s = s.actionFails.2.abort op op.failure.1 op.failure.2 := by
  rcases execMicroOp_action_cases s ha with ⟨-, he⟩ | ⟨hn, -⟩
  · exact he
  · exact nomatch hf.symm.trans hn

/-- An action does the same in either bit order; the sample is the one that reads it (R159, R241). -/
theorem execMicroOp_action_withBitOrder {op : MicroOp} (ha : op.isAction = true) (s : State) (o : BitOrder) :
    execMicroOp op (s.withBitOrder o) = (execMicroOp op s).withBitOrder o := by
  have hsame : (s.withBitOrder o).actionFails.1 = s.actionFails.1 := by rw [s.actionFails_withBitOrder]
  cases hf : s.actionFails.1 with
  | true =>
    rw [execMicroOp_of_fails ha hf, execMicroOp_of_fails ha (hsame.trans hf), s.actionFails_withBitOrder,
      State.abort_withBitOrder]
  | false =>
    cases op with
    | drive line high =>
      simp only [execMicroOp, execDrive_completes _ _ hf, execDrive_completes _ _ (hsame.trans hf),
        s.actionFails_withBitOrder, ← State.completeMicroOp_withBitOrder]
      cases line <;> rfl
    | setDir way =>
      simp only [execMicroOp, execSetDir_completes _ hf, execSetDir_completes _ (hsame.trans hf),
        s.actionFails_withBitOrder, ← State.completeMicroOp_withBitOrder]
      cases way <;> rfl
    | sample i =>
      simp only [execMicroOp, execSample_completes _ hf, execSample_completes _ (hsame.trans hf),
        s.actionFails_withBitOrder, State.drawSample_withBitOrder, capture_eq_setBit, ← State.completeMicroOp_withBitOrder]
      rfl
    | wait p => exact nomatch ha

/-- A wait counts the same cycles in either bit order (R161). -/
theorem execWait_withBitOrder (p : WaitParam) (s : State) (o : BitOrder) :
    execWait p (s.withBitOrder o) = (execWait p s).withBitOrder o := by
  have hcount : waitCount p (s.withBitOrder o) = waitCount p s := by
    rw [waitCount, State.withBitOrder, cycles_withBitOrder]
    rfl
  rw [execWait, hcount]
  rcases execWait_cases p s with ⟨hle, he⟩ | ⟨hlt, he⟩
  · rw [if_pos hle, he, finishWait, finishWait, ← State.completeMicroOp_withBitOrder]
    rfl
  · rw [if_neg (Nat.not_le.mpr hlt), he]
    rfl

theorem execMicroOp_withBitOrder (op : MicroOp) (s : State) (o : BitOrder) :
    execMicroOp op (s.withBitOrder o) = (execMicroOp op s).withBitOrder o := by
  cases op with
  | wait p => exact execWait_withBitOrder p s o
  | _ => exact execMicroOp_action_withBitOrder rfl s o

/-! ## One block cycle in another bit order -/

/-- An outcome whose next state, if it has one, is of the bit order `o`. -/
def outcomeWithBitOrder (o : BitOrder) : Host.Outcome State Fault Refusal → Host.Outcome State Fault Refusal
  | .next t    => .next (t.withBitOrder o)
  | .fault r   => .fault r
  | .refused r => .refused r

/-- No request reads the bit order at its acceptance. -/
theorem exec_withBitOrder (i : Instr) (s : State) (o : BitOrder) :
    exec i (s.withBitOrder o) = outcomeWithBitOrder o (exec i s) := by
  cases i with
  | bcdenc v =>
    by_cases hv : v.toNat ≤ 99
    · rw [exec_bcdenc_of_le hv, exec_bcdenc_of_le hv]
      rfl
    · rw [exec_bcdenc_of_not_le hv, exec_bcdenc_of_not_le hv]
      rfl
  | _ => rfl -- every other request is accepted in one way

/-- A ready cycle takes the same word and treats it alike. -/
theorem idleCycle_withBitOrder (s : State) (o : BitOrder) :
    idleCycle (s.withBitOrder o) = outcomeWithBitOrder o (idleCycle s) := by
  have hq : (s.withBitOrder o).reqShown = s.reqShown := rfl
  simp only [idleCycle, State.takeRequest, hq]
  cases s.reqShown with
  | none => rfl
  | some w =>
    cases hd : decode w with
    | none => simp only [hd]; rfl
    | some i => simp only [hd]; exact exec_withBitOrder i { s with host := s.host.tail } o

/-- A cycle of the running script runs the same micro-op, or stops alike past the script's end. -/
theorem busyCycle_withBitOrder (s : State) (o : BitOrder) :
    busyCycle (s.withBitOrder o) = outcomeWithBitOrder o (busyCycle s) := by
  rw [busyCycle, busyCycle, s.currentOp_withBitOrder]
  cases s.currentOp with
  | none => rfl
  | some op => exact congrArg Host.Outcome.next (execMicroOp_withBitOrder op s o)

theorem recoveryCycle_withBitOrder (s : State) (o : BitOrder) :
    recoveryCycle (s.withBitOrder o) = (recoveryCycle s).withBitOrder o := by
  by_cases h : s.waitcnt ≤ 1
  · exact (if_pos h).trans (by rw [recoveryCycle, if_pos h]; rfl)
  · exact (if_neg h).trans (by rw [recoveryCycle, if_neg h]; rfl)

/-- A step does the same in either bit order, by the reset event and the mode (R241). -/
theorem step_withBitOrder (s : State) (o : BitOrder) : step (s.withBitOrder o) = outcomeWithBitOrder o (step s) := by
  have hr : (s.withBitOrder o).resetNow = s.resetNow := rfl
  have hm : (s.withBitOrder o).mode = s.mode := rfl
  simp only [step, clockCycle, hr, hm]
  cases s.resetNow with
  | true => rfl
  | false =>
    cases s.mode with
    | idle => exact idleCycle_withBitOrder s.tick o
    | busy => exact busyCycle_withBitOrder s.tick o
    | rstWait => exact congrArg Host.Outcome.next (recoveryCycle_withBitOrder s.tick o)

/-- Settles O29: a step commutes with the change of the bit order, whether it answers a next state or a fault. -/
theorem bitOrderIsUnobservable : Obligations.BitOrderIsUnobservable := by
  intro s o
  exact ⟨fun _ ht => (step_withBitOrder s o).trans (congrArg (outcomeWithBitOrder o) ht),
    fun _ hr => (step_withBitOrder s o).trans (congrArg (outcomeWithBitOrder o) hr)⟩

end Sys2Proof.Machine
end

section
/-! PROOFS. The BCD codec: the two formulas in decimal digits, the answers of `BCDENC` and `BCDDEC`, and that each undoes the
other (43_bcd.md R250 to R254). -/

namespace Sys2Proof.Machine

/-! ## The formulas, by digits -/

/-- The units digit is below 16, so joining the two nibbles adds them (R250). -/
theorem bcdEncode_eq (v : Nat) : bcdEncode v = v / 10 * 16 + v % 10 := by
  have hunits : v % 10 < 2 ^ 4 := by omega
  rw [bcdEncode, ← Nat.shiftLeft_add_eq_or_of_lt hunits, Nat.shiftLeft_eq]

/-- A mask with 0x0F is a remainder by 16, and a shift by 4 a division by 16 (R251). -/
theorem bcdDecode_eq (raw : Nat) : bcdDecode raw = raw % 16 + raw / 16 % 16 * 10 := by
  have hmask (n : Nat) : n &&& 0x0F = n % 16 := Nat.and_two_pow_sub_one_eq_mod n 4
  rw [bcdDecode, hmask, hmask, Nat.shiftRight_eq_div_pow]

/-- Two decimal digits fit a byte (R250). -/
theorem ofNat_bcdEncode_toNat {v : Nat} (h : v ≤ 99) :
    (BitVec.ofNat 8 (bcdEncode v)).toNat = v / 10 * 16 + v % 10 := by
  rw [BitVec.toNat_ofNat, bcdEncode_eq]
  omega

/-- The decoding of a byte is 165 at most, so the answer loses nothing (R251). -/
theorem ofNat_bcdDecode_toNat (raw : Byte) :
    (BitVec.ofNat 8 (bcdDecode raw.toNat)).toNat = raw.toNat % 16 + raw.toNat / 16 * 10 := by
  have hhigh : raw.toNat / 16 < 16 := Nat.div_lt_of_lt_mul raw.isLt
  rw [BitVec.toNat_ofNat, bcdDecode_eq, Nat.mod_eq_of_lt hhigh]
  omega

/-! ## The answers -/

/-- Refusing a request gives the response, the two events and the mark, and moves nothing else (R310). -/
theorem State.refusedWith_refuse (s : State) (w : ReqWord) : RefusedWith s (s.refuse w) w where
  result      := s.refuse_result w
  status      := s.refuse_status w
  rspValid    := s.refuse_rspValid w
  mode        := s.refuse_mode w
  trace       := (s.refuse_trace w).trans (List.append_assoc ..)
  refusedMark := s.refuse_refusedMark w
  ceUndef     := s.refuse_ceUndef w
  lines       := ⟨rfl, rfl, rfl, rfl⟩
  sequencer   := ⟨⟨rfl, rfl, rfl, rfl⟩, rfl, rfl, rfl⟩

/-- Refusing a request leaves the inputs as they are (R310). -/
theorem State.sameInputs_refuse (s : State) (w : ReqWord) : SameInputs s (s.refuse w) :=
  ⟨rfl, rfl, rfl, rfl, rfl, rfl⟩

/-- Settles O7, on the two sides of the check. -/
theorem bcdencAnswersTensAndUnits : Obligations.BcdencAnswersTensAndUnits := by
  intro v s _
  have hword := reqWord_toNat 0x01 v
  constructor
  · intro hle
    exact ⟨_, exec_bcdenc_of_le hle s, _, _, hword, ofNat_bcdEncode_toNat hle, s.answered_answer _ _⟩
  · intro hgt
    exact ⟨_, exec_bcdenc_of_not_le (Nat.not_le.mpr hgt) s, _, hword, s.refusedWith_refuse _, s.sameInputs_refuse _⟩

/-- Settles O8: the answer is the formula's value, whole. -/
theorem bcddecAnswersMaskThenAdd : Obligations.BcddecAnswersMaskThenAdd := by
  intro raw s _
  exact ⟨_, exec_bcddec raw s, _, _, reqWord_toNat 0x02 raw, ofNat_bcdDecode_toNat raw, s.answered_answer _ _⟩

/-! ## The round trips -/

/-- The nibbles of an encoding are the decimal digits of its value (R252). -/
theorem bcdDecode_bcdEncode_byte {v : Byte} (h : v.toNat ≤ 99) :
    BitVec.ofNat 8 (bcdDecode (BitVec.ofNat 8 (bcdEncode v.toNat)).toNat) = v := by
  apply BitVec.eq_of_toNat_eq
  rw [ofNat_bcdDecode_toNat, ofNat_bcdEncode_toNat h]
  omega

/-- A byte of two decimal digits decodes to a value that `BCDENC` admits (R250, R253). -/
theorem ofNat_bcdDecode_le {b : Byte} (hlow : b.toNat % 16 ≤ 9) (hhigh : b.toNat / 16 ≤ 9) :
    (BitVec.ofNat 8 (bcdDecode b.toNat)).toNat ≤ 99 := by
  rw [ofNat_bcdDecode_toNat]
  omega

/-- The decimal digits of a decoding are the nibbles of its byte, where both are digits (R253). -/
theorem bcdEncode_bcdDecode_byte {b : Byte} (hlow : b.toNat % 16 ≤ 9) (hhigh : b.toNat / 16 ≤ 9) :
    BitVec.ofNat 8 (bcdEncode (BitVec.ofNat 8 (bcdDecode b.toNat)).toNat) = b := by
  apply BitVec.eq_of_toNat_eq
  rw [ofNat_bcdEncode_toNat (ofNat_bcdDecode_le hlow hhigh), ofNat_bcdDecode_toNat]
  omega

/-- Settles O11: the second request's operand is the first one's RESULT, and the formulas undo each other. -/
theorem bcdRoundTripsThroughTheBlock : Obligations.BcdRoundTripsThroughTheBlock := by
  intro s
  constructor
  · intro v hv
    exact ⟨_, _, exec_bcdenc_of_le hv s, exec_bcddec _ _, bcdDecode_bcdEncode_byte hv⟩
  · intro b hlow hhigh
    exact ⟨_, _, exec_bcddec b s, exec_bcdenc_of_le (ofNat_bcdDecode_le hlow hhigh) _, State.answer_status ..,
      bcdEncode_bcdDecode_byte hlow hhigh⟩

end Sys2Proof.Machine
end

section
/-! PROOFS. A host sequence on given responses: the words it issues and how it ends (45_host_sequences.md R275 to R284). -/

namespace Sys2Proof.Machine

/-! ## One request and its response (R283) -/

@[simp] theorem HostSeq.replay_done (r : HostResult) (rs : List (Status × Byte)) :
    (HostSeq.done r).replay rs = ([], some r) := by
  rw [HostSeq.replay]

/-- An OK response: its RESULT goes to what follows. -/
@[simp] theorem HostSeq.replay_ask_ok (w : ReqWord) (k : Byte → HostSeq) (d : Byte) (rs : List (Status × Byte)) :
    (HostSeq.ask w k).replay ((.ok, d) :: rs) = (w :: ((k d).replay rs).1, ((k d).replay rs).2) := by
  rw [HostSeq.replay]

/-- A response of another status ends the sequence. -/
theorem HostSeq.replay_ask_error {st : Status} (h : st ≠ .ok) (w : ReqWord) (k : Byte → HostSeq) (d : Byte)
    (rs : List (Status × Byte)) : (HostSeq.ask w k).replay ((st, d) :: rs) = ([w], some (.failed st)) := by
  cases st with
  | ok => exact absurd rfl h
  | error | refused =>
    rw [HostSeq.replay]
    exact nofun

/-- A sequence that still asks after OK responses ends at a response that is not OK, and issues no further word. -/
theorem HostSeq.replay_append_error {st : Status} (h : st ≠ .ok) (d : Byte) (rs : List (Status × Byte)) :
    ∀ (q : HostSeq) (oks : List Byte), (q.replay (oks.map fun b => (.ok, b))).2 = none →
      q.replay ((oks.map fun b => (.ok, b)) ++ (st, d) :: rs) =
        ((q.replay (oks.map fun b => (.ok, b))).1, some (.failed st))
  | .done r, _, hnone => by simp at hnone
  | .ask w k, [], _ => HostSeq.replay_ask_error h w k d rs
  | .ask w k, b :: oks, hnone => by
    simp only [List.map_cons, List.cons_append, HostSeq.replay_ask_ok] at hnone ⊢
    rw [HostSeq.replay_append_error h d rs (k b) oks hnone]

/-- An OK response to `RD_X`. -/
theorem replay_askRead (reg : ClockReg) (k : Byte → HostSeq) (d : Byte) (rs : List (Status × Byte)) :
    (askRead reg k).replay ((.ok, d) :: rs) =
      (reqWord (cmdTable reg true) 0x00 :: ((k d).replay rs).1, ((k d).replay rs).2) := by
  rw [askRead, encode_readOf, HostSeq.replay_ask_ok]

/-- An OK response to `WR_X d`. -/
theorem replay_askWrite (reg : ClockReg) (d x : Byte) (rs : List (Status × Byte)) :
    (askWrite reg d).replay ((.ok, x) :: rs) = ([reqWord (cmdTable reg false) d], some .written) := by
  rw [askWrite, encode_writeOf, HostSeq.replay_ask_ok, HostSeq.replay_done]

/-- An OK response to `BCDDEC raw`. -/
theorem replay_askDecode (raw : Byte) (k : Nat → HostSeq) (d : Byte) (rs : List (Status × Byte)) :
    (askDecode raw k).replay ((.ok, d) :: rs) =
      (reqWord 0x02 raw :: ((k d.toNat).replay rs).1, ((k d.toNat).replay rs).2) :=
  HostSeq.replay_ask_ok ..

/-- An OK response to `BCDENC v`. -/
theorem replay_askEncode (v : Nat) (k : Byte → HostSeq) (d : Byte) (rs : List (Status × Byte)) :
    (askEncode v k).replay ((.ok, d) :: rs) =
      (reqWord 0x01 (BitVec.ofNat 8 v) :: ((k d).replay rs).1, ((k d).replay rs).2) :=
  HostSeq.replay_ask_ok ..

/-! ## The getters and setters of the registers -/

/-- The seconds and the hour register have a getter of their own; the others are read as whole bytes (R273). -/
theorem getField_eq_getPlain (p : HourParams) {reg : ClockReg} (hs : reg ≠ .sec) (hh : reg ≠ .hour) :
    getField p reg = getPlain reg := by
  cases reg with
  | sec => exact absurd rfl hs
  | hour => exact absurd rfl hh
  | _ => rfl

/-- `get_hour` in 24-hour mode (R277). -/
theorem replay_getHour_24 {p : HourParams} {r : Byte} (h : r.getLsbD p.modeBit.val ≠ p.twelveValue) (v : Byte)
    (rs : List (Status × Byte)) :
    (getHour p).replay ((.ok, r) :: (.ok, v) :: rs) =
      ([0x8500, reqWord 0x02 (r &&& 0x3F)], some (.value v.toNat)) := by
  rw [getHour, replay_askRead, if_pos h, replay_askDecode, HostSeq.replay_done]
  rfl

/-- `get_hour` in 12-hour mode (R277). -/
theorem replay_getHour_12 {p : HourParams} {r : Byte} (h : r.getLsbD p.modeBit.val = p.twelveValue) (v : Byte)
    (rs : List (Status × Byte)) :
    (getHour p).replay ((.ok, r) :: (.ok, v) :: rs) =
      ([0x8500, reqWord 0x02 (r &&& 0x1F)],
        some (.value (if v.toNat = 12 then p.twelveAt (r.getLsbD p.pmBit.val)
          else if r.getLsbD p.pmBit.val then v.toNat + 12 else v.toNat))) := by
  rw [getHour, replay_askRead, if_neg (not_not.mpr h), replay_askDecode, HostSeq.replay_done]
  rfl

/-- Settles O54: each getter's requests in turn; `get_hour` by its mode. -/
theorem gettersMaskThenDecode : Obligations.GettersMaskThenDecode := by
  intro p r v
  refine ⟨?_, fun reg hs hh => ?_, fun h => replay_getHour_24 h v [], fun h hv => ?_, ?_⟩
  · rw [getSeconds, replay_askRead, replay_askDecode, HostSeq.replay_done]
    rfl
  · rw [getField_eq_getPlain p hs hh, getPlain, replay_askRead, replay_askDecode, HostSeq.replay_done]
  · rw [replay_getHour_12 h, if_neg hv]
  · rw [isRunning, replay_askRead, HostSeq.replay_done]
    cases r.getLsbD 7 <;> rfl

/-! ## The bytes the read-modify-writes put back -/

/-- A byte below the halt flag, joined with the flag of the byte read (R271, R278). -/
theorem haltFlag_or {e : Byte} (he : e.toNat < 128) (r : Byte) :
    ((r &&& 0x80) ||| e).getLsbD 7 = r.getLsbD 7 ∧ ((r &&& 0x80) ||| e).toNat % 128 = e.toNat := by
  have htop : e.getLsbD 7 = false := Nat.testBit_eq_false_of_lt he
  have hmask : (r.toNat &&& 128) % 2 ^ 7 = 0 := by rw [Nat.and_mod_two_pow]; exact Nat.and_zero _
  constructor
  · rw [BitVec.getLsbD_or, BitVec.getLsbD_and, htop, Bool.or_false]
    exact Bool.and_true _
  · calc ((r &&& 0x80) ||| e).toNat % 2 ^ 7
      _ = (r.toNat &&& 128) % 2 ^ 7 ||| e.toNat % 2 ^ 7 := by rw [BitVec.toNat_or, Nat.or_mod_two_pow]; rfl
      _ = e.toNat := by rw [hmask, Nat.zero_or, Nat.mod_eq_of_lt (b := 2 ^ 7) he]

/-- Settles O55: what `set_seconds` writes is the read byte's halt flag joined with the digits that `BCDENC` answered. -/
theorem setSecondsKeepsTheHaltFlag : Obligations.SetSecondsKeepsTheHaltFlag := by
  intro v r x hv
  have hdigits := ofNat_bcdEncode_toNat (v := v) (by omega)
  obtain ⟨hflag, hlow⟩ := haltFlag_or (e := BitVec.ofNat 8 (bcdEncode v)) (by omega) r
  refine ⟨(r &&& 0x80) ||| BitVec.ofNat 8 (bcdEncode v), ?_, hflag, hlow.trans hdigits⟩
  have hrange : inRange .sec v = true := by simp [inRange, fieldRange, hv]
  rw [setSeconds, if_pos hrange, replay_askRead, replay_askEncode, replay_askWrite]
  rfl

/-- `set_running` clears the halt flag to run and sets it to halt (R271, R282). -/
theorem runningByte_flag (b : Bool) (r : Byte) : (runningByte b r).getLsbD 7 = !b := by
  cases b with
  | true => exact (BitVec.getLsbD_and ..).trans (Bool.and_false _)
  | false => exact (BitVec.getLsbD_or ..).trans (Bool.or_true _)

/-- `set_running` puts back the seven bits below the halt flag (R282). -/
theorem runningByte_below_flag (b : Bool) (r : Byte) {k : Nat} (hk : k < 7) :
    (runningByte b r).getLsbD k = r.getLsbD k := by
  have hmasks : ∀ k < 7, (0x7F : Byte).getLsbD k = true ∧ (0x80 : Byte).getLsbD k = false := by decide
  obtain ⟨hkeep, hset⟩ := hmasks k hk
  cases b with
  | true => exact (BitVec.getLsbD_and ..).trans (hkeep ▸ Bool.and_true _)
  | false => exact (BitVec.getLsbD_or ..).trans (hset ▸ Bool.or_false _)

/-- Settles O56: the byte written is the read one with its top bit masked off to run, and set to halt. -/
theorem setRunningAltersOnlyTheHaltFlag : Obligations.SetRunningAltersOnlyTheHaltFlag := by
  intro b r x
  refine ⟨runningByte b r, ?_, runningByte_flag b r, fun _ hk => runningByte_below_flag b r hk⟩
  rw [setRunning, replay_askRead, replay_askWrite]
  rfl

/-! ## The transactions among the words issued (R284) -/

/-- The words a sequence issues that are bus transactions, given the responses. -/
def HostSeq.transactions (q : HostSeq) (rs : List (Status × Byte)) : Nat := (q.replay rs).1.countP isTransaction

/-- A word that decodes is a transaction by the top bit of its operation (R101). -/
theorem isTransaction_encode {i : Instr} (h : i.wf = true) : isTransaction (encode i) = (opField (encode i)).getLsbD 7 := by
  rw [isTransaction, decode_encode h, Option.isSome_some, Bool.and_true]

/-- A word whose operation has its top bit clear is no transaction (R101). -/
theorem isTransaction_of_pure {op : Byte} (h : op.getLsbD 7 = false) (opd : Byte) : isTransaction (reqWord op opd) = false := by
  rw [isTransaction, opField_reqWord, h, Bool.false_and]

@[simp] theorem HostSeq.transactions_done (r : HostResult) (rs : List (Status × Byte)) :
    (HostSeq.done r).transactions rs = 0 := by
  rw [HostSeq.transactions, HostSeq.replay_done, List.countP_nil]

@[simp] theorem transactions_askRead (reg : ClockReg) (k : Byte → HostSeq) (d : Byte) (rs : List (Status × Byte)) :
    (askRead reg k).transactions ((.ok, d) :: rs) = (k d).transactions rs + 1 := by
  have hw : isTransaction (reqWord (cmdTable reg true) 0x00) = true := by cases reg <;> rfl
  rw [HostSeq.transactions, replay_askRead, List.countP_cons_of_pos hw, HostSeq.transactions]

@[simp] theorem transactions_askWrite (reg : ClockReg) (d x : Byte) (rs : List (Status × Byte)) :
    (askWrite reg d).transactions ((.ok, x) :: rs) = 1 := by
  have hw : isTransaction (reqWord (cmdTable reg false) d) = true := by
    rw [← encode_writeOf, isTransaction_encode (by cases reg <;> rfl), encode_writeOf, opField_reqWord]
    cases reg <;> rfl
  rw [HostSeq.transactions, replay_askWrite, List.countP_cons_of_pos hw, List.countP_nil]

@[simp] theorem transactions_askDecode (raw : Byte) (k : Nat → HostSeq) (d : Byte) (rs : List (Status × Byte)) :
    (askDecode raw k).transactions ((.ok, d) :: rs) = (k d.toNat).transactions rs := by
  have hw : ¬ isTransaction (reqWord 0x02 raw) = true := by rw [isTransaction_of_pure rfl]; decide
  rw [HostSeq.transactions, replay_askDecode, List.countP_cons_of_neg hw, HostSeq.transactions]

@[simp] theorem transactions_askEncode (v : Nat) (k : Byte → HostSeq) (d : Byte) (rs : List (Status × Byte)) :
    (askEncode v k).transactions ((.ok, d) :: rs) = (k d).transactions rs := by
  have hw : ¬ isTransaction (reqWord 0x01 (BitVec.ofNat 8 v)) = true := by rw [isTransaction_of_pure rfl]; decide
  rw [HostSeq.transactions, replay_askEncode, List.countP_cons_of_neg hw, HostSeq.transactions]

/-- A getter reads its register once (R275 to R277). -/
theorem transactions_getField (p : HourParams) (reg : ClockReg) (x y : Byte) (rs : List (Status × Byte)) :
    (getField p reg).transactions ((.ok, x) :: (.ok, y) :: rs) = 1 := by
  cases reg with
  | sec => simp [getField, getSeconds]
  | hour =>
    rw [getField, getHour, transactions_askRead]
    split <;> simp
  | _ => simp [getField, getPlain]

/-- A setter of a value in range writes its register once, and that of the seconds reads it first (R278 to R280). -/
theorem transactions_setField {reg : ClockReg} {v : Nat} (hv : inRange reg v = true) (x y z : Byte)
    (rs : List (Status × Byte)) :
    (setField reg v).transactions ((.ok, x) :: (.ok, y) :: (.ok, z) :: rs) = if reg = .sec then 2 else 1 := by
  cases reg with
  | sec => simp [setField, setSeconds, hv]
  | _ => simp [setField, setPlain, hv]

/-- A setter of a value out of range issues nothing (R274). -/
theorem setField_of_not_inRange {reg : ClockReg} {v : Nat} (hv : inRange reg v = false) : setField reg v = .done .noRequest := by
  cases reg with
  | sec => simp [setField, setSeconds, hv]
  | _ => simp [setField, setPlain, hv]

/-- `is_running` reads the seconds register (R281). -/
theorem transactions_isRunning (x : Byte) (rs : List (Status × Byte)) : isRunning.transactions ((.ok, x) :: rs) = 1 := by
  rw [isRunning, transactions_askRead, HostSeq.transactions_done]

/-- `set_running` reads the seconds register and writes it (R282). -/
theorem transactions_setRunning (b : Bool) (x y : Byte) (rs : List (Status × Byte)) :
    (setRunning b).transactions ((.ok, x) :: (.ok, y) :: rs) = 2 := by
  rw [setRunning, transactions_askRead, transactions_askWrite]

/-- Settles O58: only the `RD_X` and `WR_X` among a sequence's words are transactions. -/
theorem transactionsPerSequence : Obligations.TransactionsPerSequence := by
  intro p x y z count
  have hcount (q : HostSeq) : count q = q.transactions [(.ok, x), (.ok, y), (.ok, z)] := rfl
  simp only [hcount]
  refine ⟨fun reg => transactions_getField p reg x y _, transactions_isRunning x _, fun b => transactions_setRunning b x y _,
    fun reg v hv => transactions_setField hv x y z [], fun reg v hv => ?_⟩
  rw [setField_of_not_inRange hv, HostSeq.transactions_done]

end Sys2Proof.Machine
end

section
/-! PROOFS. A host sequence run against the block: each request waits for its response, and `get_seconds` comes to the digits of
the byte it sampled (45_host_sequences.md R270, R275, R283, 10_state.md R41). -/

namespace Sys2Proof.Machine

/-! ## The reset inputs along a run -/

/-- A cycle of a micro-op leaves the reset inputs (R157 to R161). -/
theorem execMicroOp_resets (op : MicroOp) (s : State) : (execMicroOp op s).resets = s.resets := by
  rcases execMicroOp_cases op s with ⟨kind, hk, hf, -⟩ | ⟨he, -⟩ | ⟨p, -, -, hx⟩
  · have ha : op.isAction = true := by
      cases op with
      | wait p => cases hk
      | _ => rfl
    rw [execMicroOp_of_fails ha hf, State.abort_eq]
    exact s.actionFails_resets
  · exact he.resets
  · rw [hx]

/-- Every cycle uses up one reset input (R342). -/
theorem step_resets {s t : State} (h : step s = .next t) : t.resets = s.resets.tail := by
  rcases step_cases s with ⟨-, he⟩ | ⟨-, -, -, he⟩ | ⟨-, -, w, -, ⟨i, -, he⟩ | ⟨-, he⟩⟩ | ⟨-, -, op, -, he⟩ | ⟨-, -, -, he⟩ |
    ⟨-, -, he⟩ <;> rw [he] at h
  · obtain rfl := Host.Outcome.next.inj h
    rfl
  · obtain rfl := Host.Outcome.next.inj h
    rfl
  · rcases exec_cases i s.tick.takeRequest.2 with ⟨_, -, hx⟩ | ⟨_, _, -, hx⟩ | ⟨-, _, hx⟩ | ⟨-, hx⟩ <;>
      obtain rfl := Host.Outcome.next.inj (hx.symm.trans h) <;> rfl
  · obtain rfl := Host.Outcome.next.inj h
    rfl
  · obtain rfl := Host.Outcome.next.inj h
    exact execMicroOp_resets op s.tick
  · cases h
  · obtain rfl := Host.Outcome.next.inj h
    unfold recoveryCycle
    split <;> rfl

/-- A run of one cycle and more begins with a step. -/
theorem exists_step_of_runN {n : Nat} {s t : State} (h : runN (n + 1) s = .next t) : ∃ u, step s = .next u := by
  cases hs : step s with
  | next u => exact ⟨u, rfl⟩
  | fault r | refused r =>
    have hcore : core.step s = step s := rfl
    simp [runN, Host.Core.run, hcore, hs] at h

/-- A run of `n` cycles uses up `n` reset inputs. -/
theorem runN_resets {n : Nat} {s t : State} (h : runN n s = .next t) : t.resets = s.resets.drop n := by
  induction n generalizing s with
  | zero =>
    obtain rfl := Host.Outcome.next.inj h
    rfl
  | succ n ih =>
    obtain ⟨u, hs⟩ := exists_step_of_runN h
    rw [runN_succ_of_step hs] at h
    rw [ih h, step_resets hs, List.drop_tail]

/-! ## Waiting for a response (R41, R43, R270) -/

/-- `s` with the word `w` held at the request port until a ready cycle takes it (R43). -/
def State.offered (s : State) (w : ReqWord) : State := { s with host := some w :: s.host }

/-- An idle block that keeps the invariant is ready for the word the host shows. -/
theorem State.readyWith_offered {s : State} (hi : s.mode = .idle) (h : Inv s) (w : ReqWord) : ReadyWith (s.offered w) w :=
  ⟨hi, h.frame rfl, rfl⟩

/-- A wait for the response of a running request ends where the request does, in the cycle in which it stops being busy. -/
theorem awaitResponse_of_running {n : Nat} {s t : State} (hrun : runN n s = .next t) (ht : t.mode ≠ .busy)
    (hbusy : ∀ k, k < n → ∃ u, runN k s = .next u ∧ u.mode = .busy) {fuel : Nat} (hf : n ≤ fuel) :
    awaitResponse fuel true s = .next (t.rspValid, t) := by
  induction n generalizing s fuel with
  | zero =>
    obtain rfl := Host.Outcome.next.inj hrun
    cases fuel <;> simp [awaitResponse, ht]
  | succ n ih =>
    obtain ⟨fuel, rfl⟩ := Nat.exists_eq_add_of_le' (Nat.le_of_add_left_le hf)
    obtain ⟨s', hs', hb⟩ := hbusy 0 n.succ_pos
    obtain rfl : s = s' := Host.Outcome.next.inj hs'
    obtain ⟨u, hu⟩ := exists_step_of_runN hrun
    rw [awaitResponse, if_neg (by simp [hb]), hu]
    rw [runN_succ_of_step hu] at hrun
    exact ih hrun (fun k hk => runN_succ_of_step hu k ▸ hbusy (k + 1) (Nat.succ_lt_succ hk)) (Nat.le_of_succ_le_succ hf)

/-- A host that shows a ready block a word gets, within the cycles the request takes, what stands where it ends. -/
theorem transact_of_runN {n : Nat} {s t : State} {w : ReqWord} (hready : ReadyWith (s.offered w) w)
    (hr : s.resetNow = false) (hrun : runN (n + 1) (s.offered w) = .next t) (ht : t.mode ≠ .busy)
    (hbusy : ∀ k, 0 < k → k < n + 1 → ∃ u, runN k (s.offered w) = .next u ∧ u.mode = .busy) {fuel : Nat} (hf : n + 1 ≤ fuel) :
    transact fuel w s = .next (t.rspValid, t) := by
  obtain ⟨fuel, rfl⟩ := Nat.exists_eq_add_of_le' (Nat.le_of_add_left_le hf)
  have hacc : (s.offered w).accepts = true := by
    have hr' : (s.offered w).resetNow = false := hr
    simp [State.accepts, State.reqReady, State.reqValid, hready.idle, hready.shown, hr']
  obtain ⟨u, hu⟩ := exists_step_of_runN hrun
  show awaitResponse (fuel + 1) false (s.offered w) = _
  rw [awaitResponse, if_neg (by simp), hu]
  rw [runN_succ_of_step hu] at hrun
  simp only [hacc, Bool.or_true]
  exact awaitResponse_of_running hrun ht
    (fun k hk => runN_succ_of_step hu k ▸ hbusy (k + 1) k.succ_pos (Nat.succ_lt_succ hk)) (Nat.le_of_succ_le_succ hf)

/-- A request answered OK: the sequence goes on from there (R283). -/
theorem HostSeq.onBlock_ask_ok {fuel : Nat} {w : ReqWord} {s t : State} (h : transact fuel w s = .next (true, t))
    (hok : t.status = .ok) (k : Byte → HostSeq) : (HostSeq.ask w k).onBlock fuel s = (k t.result).onBlock fuel t := by
  rw [HostSeq.onBlock, h]
  exact if_pos hok

/-! ## What a result on the block rests on (R270, R283) -/

/-- A result of a sequence on the block is that of replaying the responses the block gave, to the words it accepted. -/
theorem HostSeq.onBlock_replays (q : HostSeq) {fuel : Nat} {s t : State} {r : HostResult} (hm : s.mode ≠ .busy)
    (h : q.onBlock fuel s = .next (some r, t)) :
    ∃ es, t.trace = s.trace ++ es ∧ q.replay (responsesIn es) = (acceptedIn es, some r) := by
  induction q generalizing s with
  | done r' =>
    obtain ⟨rfl, rfl⟩ : r' = r ∧ s = t := by simpa [HostSeq.onBlock] using h
    exact ⟨[], (List.append_nil _).symm, HostSeq.replay_done ..⟩
  | ask w k ih =>
    rw [HostSeq.onBlock] at h
    cases htr : transact fuel w s with
    | fault f | refused f => simp [htr] at h
    | next p =>
      obtain ⟨answered, u⟩ := p
      cases answered with
      | false => simp [htr] at h
      | true =>
        simp only [htr] at h
        obtain ⟨es, hes, hacc, hrsp, hu⟩ := transact_answered (fun _ => encode_of_decode) hm htr
        by_cases hok : u.status = .ok
        · rw [if_pos hok] at h
          obtain ⟨es', hes', hreplay⟩ := ih _ hu h
          refine ⟨es ++ es', by rw [hes', hes, List.append_assoc], ?_⟩
          rw [responsesIn_append, acceptedIn_append, hacc, hrsp, hok, List.singleton_append, HostSeq.replay_ask_ok, hreplay]
          rfl
        · rw [if_neg hok] at h
          obtain ⟨rfl, rfl⟩ : HostResult.failed u.status = r ∧ u = t := by simpa using h
          exact ⟨es, hes, by rw [hrsp, hacc, HostSeq.replay_ask_error hok]⟩

/-- Settles O57: by the words still asked after the OK responses, and by the requests waited out on the block. -/
theorem sequencesEndAtTheFirstError : Obligations.SequencesEndAtTheFirstError := by
  refine ⟨fun q oks st d rest hst hnone => ?_, fun q fuel s t r hm h => q.onBlock_replays hm h⟩
  rw [HostSeq.replay_append_error hst d rest q oks hnone]
  exact ⟨rfl, rfl⟩

/-! ## `get_seconds` on the block (R275, R203, R251) -/

/-- Placed samples that suffice are the bits sampled (R160). -/
theorem SampledBits.eq_placed {bits rest bits' : List Bool} (h : SampledBits (bits ++ rest) bits') (hlen : bits.length = 8) :
    bits' = bits := by
  obtain ⟨hlen', hplaced⟩ := h
  refine List.ext_getElem (hlen'.trans hlen.symm) fun k _ hk => ?_
  have hbit := hplaced k bits[k] (hlen ▸ hk) (by rw [List.getElem?_append_left hk, List.getElem?_eq_getElem hk])
  exact (List.getElem?_eq_some_iff.mp hbit).2

/-- Without its top bit, a byte is its remainder by 128 (R271, R275). -/
theorem and_7F_toNat (r : Byte) : (r &&& 0x7F).toNat = r.toNat % 128 :=
  (BitVec.toNat_and ..).trans (Nat.and_two_pow_sub_one_eq_mod r.toNat 7)

/-- `BCDDEC` on an idle block is answered in its acceptance cycle (R251). -/
theorem transact_bcddec {s : State} (hi : s.mode = .idle) (hinv : Inv s) (hr : s.resetNow = false) (raw : Byte) {fuel : Nat}
    (hf : 1 ≤ fuel) :
    ∃ t, transact fuel (encode (.bcddec raw)) s = .next (true, t) ∧ t.mode = .idle ∧ t.status = .ok ∧
      t.result = BitVec.ofNat 8 (bcdDecode raw.toNat) := by
  have hready := s.readyWith_offered hi hinv (encode (.bcddec raw))
  have hstep := (hready.step_eq rfl hr).trans (exec_bcddec raw _)
  refine ⟨_, transact_of_runN hready hr ((runN_one _).trans hstep) ?_ (fun k hpos hk => ?_) hf, rfl, rfl, rfl⟩
  · simp
  · omega

/-- An undisturbed `RD_X` on an idle block: the host gets the byte of the placed samples (R200, R160). -/
theorem transact_read {s : State} {reg : ClockReg} {bits rest : List Bool} (hi : s.mode = .idle) (hinv : Inv s)
    (hlen : bits.length = 8) (hsamples : s.samples = bits ++ rest) {fuel m : Nat}
    (hf : 1 + scriptCycles s.cfg (readScriptFrom s reg) ≤ fuel)
    (hres : s.noResetFor (1 + scriptCycles s.cfg (readScriptFrom s reg) + m) = true)
    (hfail : s.noFailFor (actionCount (readScriptFrom s reg))) :
    ∃ t, transact fuel (encode (.readOf reg)) s = .next (true, t) ∧ t.mode = .idle ∧ t.status = .ok ∧
      t.result = byteOfBits bits ∧ Inv t ∧ t.noResetFor m = true := by
  have hready := s.readyWith_offered hi hinv (encode (.readOf reg))
  obtain ⟨-, hbusy, t, bits', hrun, hbits, hmode, hok, hresult, hvalid, -⟩ :=
    undisturbedReadCompletes _ reg hready (State.noResetFor_le hres (Nat.le_add_right ..)) hfail
  obtain rfl : bits' = bits := SampledBits.eq_placed (hsamples ▸ hbits) hlen
  refine ⟨t, ?_, hmode, hok, hresult, hready.inv.runN hrun, ?_⟩
  · rw [← hvalid]
    rw [Nat.add_comm] at hrun hf
    refine transact_of_runN hready (State.resetNow_of_noResetFor hres (by omega)) hrun (by simp [hmode]) (fun k hpos hk => ?_) hf
    obtain ⟨u, hu, hb, -⟩ := hbusy k hpos (Nat.add_comm .. ▸ hk)
    exact ⟨u, hu, hb⟩
  · rw [State.noResetFor, runN_resets hrun]
    exact State.noResetFor_tickBy hres

/-- Settles O59: the read is answered with the sampled byte, the decoding of its low seven bits with their digits. -/
theorem getSecondsOnTheBlock : Obligations.GetSecondsOnTheBlock := by
  intro s bits rest fuel hi hinv hlen hsamples hf hres hfail
  rw [show scriptCycles s.cfg (readScriptFrom s .sec) + 2 = 1 + scriptCycles s.cfg (readScriptFrom s .sec) + 1 by omega] at hres
  obtain ⟨t, hread, hti, htok, htr, htinv, htres⟩ := transact_read hi hinv hlen hsamples hf hres hfail
  obtain ⟨u, hdec, hui, huok, hur⟩ := transact_bcddec hti htinv (State.resetNow_of_noResetFor htres Nat.one_pos)
    (t.result &&& 0x7F) (fuel := fuel) (by omega)
  refine ⟨u, ?_, hui⟩
  rw [getSeconds, askRead, HostSeq.onBlock_ask_ok hread htok, askDecode, HostSeq.onBlock_ask_ok hdec huok, HostSeq.onBlock,
    hur, ofNat_bcdDecode_toNat, and_7F_toNat, htr, Nat.mod_mod_of_dvd _ (by decide)]

end Sys2Proof.Machine
end

section
/-! PROOFS. The exceptions: an idle block without a request, the errors that a write can report, and the abort at the first
failing action of a transaction (60_exceptions.md R303, R305, R306, R311, R320). -/

namespace Sys2Proof.Machine

/-! ## The idle block (R320) -/

/-- Settles O24: of the cases of a step, only the ready cycle without a word is left. -/
theorem idleBlockWithoutRequestHoldsItsState : Obligations.IdleBlockWithoutRequestHoldsItsState := by
  intro s hi hr hq
  rcases step_cases s with ⟨ht, -⟩ | ⟨-, -, -, he⟩ | ⟨-, -, w, hw, -⟩ | ⟨-, hb, -⟩ | ⟨-, hb, -⟩ | ⟨-, hb, -⟩
  · exact nomatch hr.symm.trans ht
  · exact he
  · exact nomatch hq.symm.trans hw
  all_goals exact nomatch hi.symm.trans hb

/-! ## The errors of a write (R303) -/

/-- Only a switch to input and a sample report READ_ERROR (R158, R159). -/
theorem MicroOp.errKind?_eq_read {op : MicroOp} (h : op.errKind? = some .read) :
    op = .setDir .input ∨ ∃ i, op = .sample i := by
  cases op with
  | drive line high => cases line <;> cases h
  | setDir way =>
    cases way with
    | input => exact .inl rfl
    | output => cases h
  | sample i => exact .inr ⟨i, rfl⟩
  | wait p => cases h

/-- A write does not switch the data line to input (R155). -/
theorem setDir_input_not_mem_writeScript (o : BitOrder) (c d : Byte) (fix : Bool) :
    .setDir .input ∉ writeScript o c d fix := by
  simp [writeScript, fixup, prologue, wbyte, wbit, epilogue]

/-- No action of a write reports READ_ERROR (R303, C10). -/
theorem errKind?_ne_read_of_mem_writeScript {o : BitOrder} {c d : Byte} {fix : Bool} {op : MicroOp}
    (h : op ∈ writeScript o c d fix) : op.errKind? ≠ some .read := by
  intro hk
  rcases MicroOp.errKind?_eq_read hk with rfl | ⟨i, rfl⟩
  · exact setDir_input_not_mem_writeScript o c d fix h
  · exact absurd (mem_sampledIn.mpr h) (by simp [sampledIn_writeScript])

/-- The current micro-op of a running write is one of its write script (R155, R162). -/
theorem State.currentOp_mem_writeScript {s : State} {op : MicroOp} (hk : s.kind = .write) (ho : s.currentOp = some op) :
    op ∈ writeScript s.cfg.bitOrder s.cmd s.wdata s.fix := by
  have hmem : op ∈ s.script := List.mem_of_getElem? ho
  rwa [State.script, hk] at hmem

/-- A cycle of a running script, without a reset event, is one of its current micro-op (R162). -/
theorem exists_currentOp_of_step {s t : State} (hb : s.mode = .busy) (hr : s.resetNow = false) (h : step s = .next t) :
    ∃ op, s.currentOp = some op ∧ execMicroOp op s.tick = t := by
  rcases step_cases s with ⟨ht, -⟩ | ⟨-, hm, -⟩ | ⟨-, hm, -⟩ | ⟨-, -, op, ho, he⟩ | ⟨-, -, -, he⟩ | ⟨-, hm, -⟩
  · exact nomatch hr.symm.trans ht
  · exact nomatch hb.symm.trans hm
  · exact nomatch hb.symm.trans hm
  · exact ⟨op, ho, Host.Outcome.next.inj (he.symm.trans h)⟩
  · exact nomatch he.symm.trans h
  · exact nomatch hb.symm.trans hm

/-- Settles O47: a step that ends a running write aborts it at an action of the write script, or completes it with OK. -/
theorem writeRequestsNeverReportReadError : Obligations.WriteRequestsNeverReportReadError := by
  intro s t hb hkind hr h hi
  obtain ⟨op, ho, rfl⟩ := exists_currentOp_of_step hb hr h
  rcases execMicroOp_cases op s.tick with ⟨kind, hk, -, ha⟩ | ⟨-, ev, hc, -, -⟩ | ⟨p, -, -, hx⟩
  · rw [ha.status]
    rintro ⟨⟩
    exact errKind?_ne_read_of_mem_writeScript (State.currentOp_mem_writeScript hkind ho) hk
  · by_cases hn : s.upc + 1 = s.script.length
    · obtain ⟨-, -, hst, -⟩ := hc.ends hn
      simp [hst]
    · obtain ⟨hmode, -⟩ := hc.goesOn hn
      exact nomatch hi.symm.trans (hmode.trans hb)
  · rw [hx] at hi
    exact nomatch hi.symm.trans hb

end Sys2Proof.Machine
end

section
/-! PROOFS. A transaction whose first failing action stands somewhere in its script: the micro-ops before it are performed, and
it aborts the transaction in its own cycle (60_exceptions.md R305, R306, R311, 40_bus_engine.md R352). -/

namespace Sys2Proof.Machine

/-! ## The micro-ops before the failing action -/

/-- An action whose failure is admitted uses up one placed answer, a wait none (R157 to R161). -/
theorem wholeMicroOp_fails {s : State} {op : MicroOp} (hadm : s.cfg.lineFailAdmitted = true)
    (hf : op.isAction = true → s.actionFails.1 = false) :
    (wholeMicroOp op s).fails = s.fails.drop (actionCount [op]) := by
  by_cases ha : op.isAction = true
  · rw [wholeMicroOp_action ha, execMicroOp_fails ha (hf ha), actionCount, List.countP_singleton, if_pos ha]
    cases hs : s.fails <;> simp [State.actionFails, State.drawFail, hadm, hs]
  · cases op with
    | wait p => simp [wholeMicroOp, finishWait, actionCount, MicroOp.isAction]
    | _ => exact absurd rfl ha

/-- Performing no micro-op. -/
theorem Performed.refl {s : State} (hb : s.mode = .busy) : Performed s s [] where
  ioOut := rfl
  latches := ⟨rfl, rfl, rfl, rfl⟩
  cfg := rfl
  host := rfl
  refusedMark := rfl
  samples := rfl
  rxKept _ _ := rfl
  rxPlaced _ _ _ h := nomatch h
  trace := by simp [State.responseEvents, hb]

/-- `t` is `s` after the micro-ops `ops` of its running script, none of which failed, with `rest` still ahead. -/
structure Arrives (s t : State) (ops rest : List MicroOp) : Prop where
  ahead     : Ahead t [] rest
  performed : Performed s t ops
  sclk      : t.sclk = levelAfter .sclk ops s.sclk
  ioDir     : t.ioDir = dirAfter ops s.ioDir
  /-- One answer of the environment went to each action. -/
  fails     : t.fails = s.fails.drop (actionCount ops)

/-- Where the block has arrived does not depend on the reset inputs that pass. -/
theorem Arrives.tickBy {s t : State} {ops rest : List MicroOp} (h : Arrives s t ops rest) (n : Nat) :
    Arrives s (t.tickBy n) ops rest :=
  ⟨h.ahead.tickBy n, h.performed.tickBy n, h.sclk, h.ioDir, h.fails⟩

/-- Micro-ops that do not fail lead to those after them, where each position is sampled once at most. -/
theorem Ahead.arrives {s : State} {ops rest : List MicroOp} (h : Ahead s ops rest) (hne : rest ≠ [])
    (hadm : s.cfg.lineFailAdmitted = true) (hnd : (sampledIn ops).Nodup) : Arrives s (performAll ops s) ops rest := by
  induction ops generalizing s with
  | nil => exact ⟨h, .refl h.busy, rfl, rfl, rfl⟩
  | cons op ops ih =>
    obtain ⟨he, _, -, hc⟩ := wholeMicroOp_completes h.not_fails
    have hnext : Ahead (wholeMicroOp op s) ops rest := h.next (by simp [hne])
    have hfails := wholeMicroOp_fails hadm h.not_fails
    rw [← List.singleton_append] at hnd ⊢
    have hrest := ih hnext (by rw [hc.cfg, hadm]) (List.Nodup.of_append_right (sampledIn_append .. ▸ hnd))
    refine ⟨hrest.ahead, (wholeMicroOp_performed h.busy h.not_fails).trans hnext.busy hrest.performed hnd, ?_, ?_, ?_⟩
    · exact hrest.sclk.trans (by rw [levelAfter_append, he.sclk])
    · exact hrest.ioDir.trans (by rw [dirAfter_append, he.ioDir])
    · exact hrest.fails.trans (by rw [hfails, List.drop_drop, actionCount, actionCount, actionCount, List.countP_append])

/-! ## The failing action -/

/-- Only an action reports an error (R157 to R159). -/
theorem MicroOp.isAction_of_errKind? {op : MicroOp} {kind : ErrKind} (h : op.errKind? = some kind) : op.isAction = true := by
  cases op with
  | wait p => cases h
  | _ => rfl

/-- An action whose placed answer is a failure aborts the transaction in its one cycle, and uses that answer up (R305). -/
theorem Ahead.aborts {s : State} {ops : List MicroOp} {op : MicroOp} {kind : ErrKind} {rest : List Bool}
    (h : Ahead s [] ops) (ho : ops.head? = some op) (hk : op.errKind? = some kind)
    (hadm : s.cfg.lineFailAdmitted = true) (hf : s.fails = true :: rest) (hr : s.resetNow = false) :
    ∃ t, step s = .next t ∧ AbortedAt s t op kind ∧ t.fails = rest := by
  have hcur : s.currentOp = some op := by rw [State.currentOp, ← List.head?_drop, h.script, List.nil_append, ho]
  have hbad : (s.tickBy 1).actionFails = (true, { s.tickBy 1 with fails := rest }) := State.actionFails_of_placed hadm hf
  have hbad1 : (s.tickBy 1).actionFails.1 = true := by rw [hbad]
  refine ⟨_, step_of_currentOp h.busy hr hcur, (execMicroOp_aborts hk hbad1).of_tickBy, ?_⟩
  rw [execMicroOp_of_fails (MicroOp.isAction_of_errKind? hk) hbad1, State.abort_eq, hbad]

/-! ## The bits of a read that is cut short (R160) -/

/-- A read samples the positions in order, so far as it gets: the `i`-th sample is that of bit `i` (R151). -/
theorem getElem?_of_prefix_bitPositions {l : List (Fin 8)} (h : l <+: bitPositions) {i : Fin 8} (hi : i ∈ l) :
    l[i.val]? = some i := by
  obtain ⟨k, hk⟩ := List.mem_iff_getElem?.mp hi
  obtain ⟨rest, hrest⟩ := h
  have hpos : bitPositions[k]? = some i := by
    rw [← hrest, List.getElem?_append_left (List.getElem?_eq_some_iff.mp hk).1, hk]
  have hki : k = i.val := (List.getElem?_inj (List.getElem?_eq_some_iff.mp hpos).1 (by decide)).mp
    (hpos.trans (bitPositions_getElem? i).symm)
  rwa [← hki]

/-- Eight sample answers: those that `placed` gives, and the bits of `x` for the rest. -/
def answersOrBits (placed : List Bool) (x : Byte) : List Bool := bitPositions.map fun i => placed.getD i.val (bitOf x i)

/-- The `i`-th of them. -/
theorem answersOrBits_getElem? (placed : List Bool) (x : Byte) (i : Fin 8) :
    (answersOrBits placed x)[i.val]? = some (placed.getD i.val (bitOf x i)) := by
  rw [answersOrBits, List.getElem?_map, bitPositions_getElem?]
  rfl

/-- They are what eight samples may return (R160). -/
theorem sampledBits_answersOrBits (placed : List Bool) (x : Byte) : SampledBits placed (answersOrBits placed x) :=
  ⟨rfl, fun k b hk hb => (answersOrBits_getElem? placed x ⟨k, hk⟩).trans (by simp [hb])⟩

/-- The events of micro-ops that sample the positions in order carry the placed answers, and bits of `rx` where those end. -/
theorem Performed.map_eventOf {s t : State} {ops : List MicroOp} (h : Performed s t ops)
    (hops : sampledIn ops <+: bitPositions) :
    ops.map (eventOf (bitsLsbFirst t.rx)) = ops.map (eventOf (answersOrBits s.samples t.rx)) := by
  refine List.map_congr_left fun op hop => ?_
  cases op with
  | sample i =>
    have hpos := getElem?_of_prefix_bitPositions hops (mem_sampledIn.mpr hop)
    have hbit : bitOf t.rx i = s.samples.getD i.val (bitOf t.rx i) := by
      cases hb : s.samples[i.val]? with
      | none => simp [hb]
      | some b => simpa [hb] using h.rxPlaced i.val i b hpos hb
    rw [eventOf_sample, eventOf, List.getD_eq_getElem?_getD, answersOrBits_getElem?, ← hbit]
    rfl
  | _ => rfl

/-! ## From the acceptance to the abort -/

/-- The cycle from `s` accepts the transaction request `w`, leaving the block in `a` at the start of its script `ops`: lines and
coming answers are as before (R200, R201). -/
structure Accepts (s a : State) (w : ReqWord) (ops : List MicroOp) : Prop where
  accepted : step s = .next a
  busy     : a.mode = .busy
  upc      : a.upc = 0
  waitcnt  : a.waitcnt = 0
  script   : a.script = ops
  inOrder  : sampledIn ops <+: bitPositions
  lines    : SameLines s a
  fails    : a.fails = s.fails
  samples  : a.samples = s.samples
  cfg      : a.cfg = s.cfg
  trace    : a.trace = s.trace ++ [.accept w]

/-- An idle block accepts the write shown (R201). -/
theorem ReadyWith.accepts_write {s : State} {reg : ClockReg} {d : Byte} (h : ReadyWith s (encode (.writeOf reg d)))
    (hr : s.resetNow = false) : Accepts s (s.writing reg d) (encode (.writeOf reg d)) (writeScriptFrom s reg d) where
  accepted := (h.step_eq (by cases reg <;> rfl) hr).trans (exec_writeOf reg d _)
  busy := rfl
  upc := rfl
  waitcnt := (h.inv.idle h.idle).waitZero h.idle
  script := s.script_writing reg d
  inOrder := by rw [writeScriptFrom, sampledIn_writeScript]; exact List.nil_prefix
  lines := ⟨rfl, rfl, rfl, rfl⟩
  fails := rfl
  samples := rfl
  cfg := rfl
  trace := rfl

/-- An idle block accepts the read shown (R200). -/
theorem ReadyWith.accepts_read {s : State} {reg : ClockReg} (h : ReadyWith s (encode (.readOf reg)))
    (hr : s.resetNow = false) : Accepts s (s.reading reg) (encode (.readOf reg)) (readScriptFrom s reg) where
  accepted := (h.step_eq (by cases reg <;> rfl) hr).trans (exec_readOf reg _)
  busy := rfl
  upc := rfl
  waitcnt := (h.inv.idle h.idle).waitZero h.idle
  script := s.script_reading reg
  inOrder := by rw [readScriptFrom, sampledIn_readScript]
  lines := ⟨rfl, rfl, rfl, rfl⟩
  fails := rfl
  samples := rfl
  cfg := rfl
  trace := rfl

section Accepts
variable {s a : State} {w : ReqWord} {ops : List MicroOp} (h : Accepts s a w ops) {u : Nat}
include h

/-- The micro-ops before any position sample the positions in order (R151, R156). -/
theorem Accepts.take_inOrder : sampledIn (ops.take u) <+: bitPositions :=
  ((List.take_prefix u ops).filterMap _).trans h.inOrder

/-- Where none of the actions before a position fails, the cycles of the micro-ops before it lead there (R352). -/
theorem Accepts.arrives (hadm : s.cfg.lineFailAdmitted = true) (hu : u < ops.length) {rest : List Bool}
    (hf : s.fails = List.replicate (actionCount (ops.take u)) false ++ rest)
    (hres : s.noResetFor (1 + scriptCycles s.cfg (ops.take u)) = true) :
    ∃ v, runN (1 + scriptCycles s.cfg (ops.take u)) s = .next v ∧ Arrives a v (ops.take u) (ops.drop u) := by
  have hahead : Ahead a (ops.take u) (ops.drop u) := by
    refine ⟨h.busy, h.waitcnt, by simp [h.upc, h.script], .inr ?_⟩
    rw [h.fails, hf]
    simp
  have hres' : a.noResetFor (scriptCycles a.cfg (ops.take u)) = true := by
    rw [State.noResetFor, runN_resets ((runN_one s).trans h.accepted), h.cfg]
    exact State.noResetFor_tickBy hres
  have hrun := hahead.runN hres'
  rw [h.cfg] at hrun
  exact ⟨_, (runN_add _ ((runN_one s).trans h.accepted)).trans hrun,
    (hahead.arrives (by simpa using hu) (h.cfg ▸ hadm) (h.take_inOrder.nodup (by decide))).tickBy _⟩

/-- The first failing action aborts the transaction in its own cycle, and those before it were performed (R305, R311). -/
theorem Accepts.aborts (hadm : s.cfg.lineFailAdmitted = true) {op : MicroOp} {kind : ErrKind} (ho : ops[u]? = some op)
    (hk : op.errKind? = some kind) {rest : List Bool}
    (hf : s.fails = List.replicate (actionCount (ops.take u)) false ++ true :: rest)
    (hres : s.noResetFor (1 + scriptCycles s.cfg (ops.take u) + 1) = true) :
    ∃ v t, runN (1 + scriptCycles s.cfg (ops.take u) + 1) s = .next t ∧ Arrives a v (ops.take u) (ops.drop u) ∧
      AbortedAt v t op kind ∧ t.fails = rest := by
  obtain ⟨v, hrun, hv⟩ := h.arrives hadm (List.getElem?_eq_some_iff.mp ho).1 hf (State.noResetFor_le hres (Nat.le_succ _))
  have hfails : v.fails = true :: rest := by rw [hv.fails, h.fails, hf, List.drop_left' (List.length_replicate ..)]
  have hr : v.resetNow = false := by
    rw [State.resetNow, runN_resets hrun]
    exact State.resetNow_tickBy hres (Nat.lt_succ_self _)
  obtain ⟨t, hstep, hab, hrest⟩ := hv.ahead.aborts ((List.head?_drop ..).trans ho) hk
    (by rw [hv.performed.cfg, h.cfg, hadm]) hfails hr
  exact ⟨v, t, (runN_succ_of_runN hrun).trans hstep, hv, hab, hrest⟩

end Accepts

/-- Settles O51: the request is accepted, the micro-ops before the failing action are performed, and that action aborts. -/
theorem firstFailureAbortsPrecisely : Obligations.FirstFailureAbortsPrecisely := by
  intro s w ops hw hready hadm u op kind rest ho hk hf n hres
  obtain ⟨a, ha⟩ : ∃ a, Accepts s a w ops := by
    have hr : s.resetNow = false := State.resetNow_of_noResetFor hres (Nat.succ_pos _)
    rcases hw with ⟨reg, d, rfl, rfl⟩ | ⟨reg, rfl, rfl⟩
    · exact ⟨_, hready.accepts_write hr⟩
    · exact ⟨_, hready.accepts_read hr⟩
  obtain ⟨v, t, hrun, hv, hab, hrest⟩ := ha.aborts hadm ho hk hf hres
  have htrace : v.trace = s.trace ++ [.accept w] ++ (ops.take u).map (eventOf (answersOrBits s.samples v.rx)) := by
    have hnone : v.responseEvents = [] := by simp [State.responseEvents, hv.ahead.busy]
    rw [hv.performed.trace, hnone, hv.performed.map_eventOf ha.take_inOrder, ha.trace, ha.samples, List.append_nil]
  refine ⟨t, _, hrun, sampledBits_answersOrBits s.samples v.rx, hab.mode, hab.status, hab.result, hab.rspValid, hab.ce,
    hab.ceUndef, hab.upc, hab.waitcnt, hrest, ?_, ?_, ?_, ?_⟩
  · rw [hab.sclk, hv.sclk, ha.lines.sclk]
  · rw [hab.ioOut, hv.performed.ioOut, ha.lines.ioOut]
  · rw [hab.ioDir, hv.ioDir, ha.lines.ioDir]
  · rw [hab.trace, htrace]

end Sys2Proof.Machine
end

section
/-! PROOFS. Reset: it takes the place of any step, and the recovery that follows ends in IDLE without a response
(70_reset_and_hazards.md R340 to R342). -/

namespace Sys2Proof.Machine

/-- A reset event takes the place of the step, in every mode (R309, R342). -/
theorem step_of_resetNow {s : State} (hr : s.resetNow = true) : step s = .next s.tick.applyReset := if_pos hr

/-- Settles O21: the step is the reset, whose fields are those of R52 and the kept inputs. -/
theorem resetTakesPriorityInEveryState : Obligations.ResetTakesPriorityInEveryState := by
  intro s hr
  exact ⟨_, step_of_resetNow hr, by simp⟩

/-- Settles O22: until its last cycle the recovery moves the counter alone, and in that cycle the mode too. -/
theorem resetRecoveryEndsInIdleWithoutResponse : Obligations.ResetRecoveryEndsInIdleWithoutResponse := by
  intro s hm n hres
  have hcounts (k : Nat) (hk : k < n) : runN k s = .next (s.counted k (s.waitcnt - k)) :=
    runN_recovery_counts hm hres k hk hk.le
  have hends : runN n s = .next { s.counted n 0 with mode := .idle } := runN_recovery_ends hm hres
  refine ⟨fun k hk => ⟨_, hcounts k hk, hm, ?_, rfl⟩,
    _, hends, rfl, rfl, rfl, ⟨rfl, rfl, rfl, rfl⟩, ⟨rfl, rfl, rfl, rfl⟩, rfl, rfl⟩
  simp [State.reqReady, State.counted, State.tickBy, hm]

end Sys2Proof.Machine
end
